-- ==== Sys2Proof/Word.lean ====
section
/-! DEFINITION. The bit-vector types of the frame parser block (00_scope.md R9, R10). -/

namespace Sys2Proof

/-- A byte: `BYTE_W` = 8 bits (R9, R10). -/
abbrev Byte := BitVec 8

/-- A command word, a value of `rdata` or a 16-bit field: `CMD_W` = `RDATA_W` = `FIELD_W` = 16 bits (R9). -/
abbrev Word := BitVec 16

/-- A 4-bit operand `a`, frame length, buffer index or status code (30_encoding.md R70; R9 `STATUS_W`). -/
abbrev Nibble := BitVec 4

end Sys2Proof
end

