-- ==== Sys2Proof/Config.lean ====
section
/-! DEFINITION. The block's fixed parameters (00_scope.md R9) and the free values of its power-up state
(70_reset_and_hazards.md R211). -/

namespace Sys2Proof

/-- `MEAS_LEN`: a measurement frame has 9 bytes (00_scope.md R9; 40_control.md R103). -/
abbrev Config.measLen : Nibble := 9#4

/-- `RAW_MIN_LEN` (00_scope.md R9; 40_control.md R104). -/
abbrev Config.rawMinLen : Nat := 1

/-- `RAW_MAX_LEN` (00_scope.md R9; 40_control.md R104). -/
abbrev Config.rawMaxLen : Nat := 9

/-- `BUF_BYTES`: the buffer's addresses are 0 to 8 (00_scope.md R9; 20_memory.md R50). -/
abbrev Config.bufBytes : Nat := 9

/-- `HDR_BYTE`: the expected, never required, header byte (00_scope.md R9; 41_frame.md R128). -/
abbrev Config.hdrByte : Byte := 0x59#8

/-- A FREE VALUE (log 3): what the `n`-th power-up leaves in one element of the block, the elements numbered
in the order of 10_state.md R22 and the buffer's bytes from 100 on. 70_reset_and_hazards.md R211: "every element
may hold any value of its width". It has no body, so nothing can be proved of it. -/
opaque Config.powerUpValue (n element : Nat) : Word

end Sys2Proof
end

