-- ==== Sys2Proof/Syntax.lean ====
section
/-! DEFINITION. The block's commands, one constructor for each row of spec/opcode_table.json
(30_encoding.md R72), and the lines of its assembler (R77, R78). -/

namespace Sys2Proof

/-- The seven commands. An operand is an unsigned field of the word, taken as is (30_encoding.md R71), so its type is
the field's width; whether its value is one the command accepts is checked at execution (R75). -/
inductive Instr where
  /-- `NOP` (40_control.md R101). -/
  | nop
  /-- `CLEAR` (40_control.md R102). -/
  | clear
  /-- `START.M` (40_control.md R103). -/
  | startM
  /-- `START.R n` (40_control.md R104). -/
  | startR (n : Nibble)
  /-- `PUSH d` (41_frame.md R120). -/
  | push (d : Byte)
  /-- `READ r` (42_readout.md R160). -/
  | read (r : Nibble)
  /-- `RDBUF i` (42_readout.md R162). -/
  | rdbuf (i : Nibble)
deriving DecidableEq, Repr

/-- One line of the assembler: the seven commands with operands as numbers (30_encoding.md R77) and the two
pseudo-instructions (R78). A number may be too large for its field: `AsmLine.wellFormed` refuses such a line. -/
inductive AsmLine where
  /-- `NOP`. -/
  | nop
  /-- `CLEAR`. -/
  | clear
  /-- `START.M`. -/
  | startM
  /-- `START.R n`. -/
  | startR (n : Nat)
  /-- `PUSH b`. -/
  | push (b : Nat)
  /-- `READ sel`, the selector as its number. -/
  | read (sel : Nat)
  /-- `RDBUF i`. -/
  | rdbuf (i : Nat)
  /-- `FRAME.M b0, …, b8`. -/
  | frameM (bytes : List Nat)
  /-- `FRAME.R b0, …, b(n−1)`. -/
  | frameR (bytes : List Nat)
deriving DecidableEq, Repr

end Sys2Proof
end

