-- ==== Sys2Proof/WellFormed.lean ====
section
/-! DEFINITION. Which terms are well formed.
Every `Instr` is: its operands have the width of their fields, and every value of a field is a legal encoding
(30_encoding.md R71, R75), so there is nothing to check. What is checked is a line of the assembler: "An assembler refuses
an operand outside its 4-bit or 8-bit field" (R77), and a pseudo-instruction's number of bytes (R78). -/

namespace Sys2Proof

/-- The number fits the 4-bit field `a` (30_encoding.md R70). -/
def fitsNibble (n : Nat) : Bool := decide (n < 16)

/-- The number fits the 8-bit field `d` (30_encoding.md R70). -/
def fitsByte (b : Nat) : Bool := decide (b < 256)

/-- What an assembler accepts (30_encoding.md R77, R78): every operand fits its field, `FRAME.M` has the 9 bytes of a
measurement frame and `FRAME.R` 1 to 9 bytes. A value that fits its field and that execution rejects
(`START.R 12`) is accepted. -/
def AsmLine.wellFormed : AsmLine → Bool
  | .nop => true
  | .clear => true
  | .startM => true
  | .startR n => fitsNibble n
  | .push b => fitsByte b
  | .read sel => fitsNibble sel
  | .rdbuf i => fitsNibble i
  | .frameM bytes => bytes.length == Config.measLen.toNat && bytes.all fitsByte
  | .frameR bytes =>
    decide (Config.rawMinLen ≤ bytes.length) && decide (bytes.length ≤ Config.rawMaxLen) && bytes.all fitsByte

end Sys2Proof
end

