-- ==== Sys2Proof/Decode.lean ====
section
/-! DEFINITION. Decoding of command words (30_encoding.md R70 to R76), total and rejecting by name; the encoder; and the
words an assembler line stands for (R77, R78). -/

namespace Sys2Proof

/-- The field `op`, bits [15:12] (30_encoding.md R70). -/
def opField (w : Word) : Nibble := w.extractLsb' 12 4

/-- The field `a`, bits [11:8] (30_encoding.md R70). -/
def aField (w : Word) : Nibble := w.extractLsb' 8 4

/-- The field `d`, bits [7:0] (30_encoding.md R70). -/
def dField (w : Word) : Byte := w.extractLsb' 0 8

/-- Why a word is illegal: the four groups of 30_encoding.md R74. -/
inductive IllegalWord where
  /-- `op` = 0x7 to 0xF, with any `a` and `d`. -/
  | reservedOp
  /-- NOP, CLEAR or START.M with `a ≠ 0` or `d ≠ 0x00`. -/
  | operandOfNone
  /-- START.R, READ or RDBUF with `d ≠ 0x00`. -/
  | dNotZero
  /-- PUSH with `a ≠ 0`. -/
  | aNotZero
deriving DecidableEq, Repr

/-- What a command word decodes to. -/
inductive Decoded where
  /-- The word matches the row of this command. -/
  | legal (i : Instr)
  /-- The word matches no row: ILLEGAL, with the reason. -/
  | illegal (why : IllegalWord)
deriving DecidableEq, Repr

/-- One row of the opcode map of 30_encoding.md R72. -/
structure OpRow where
  mnemonic : String
  mask : Word
  pattern : Word
  build : Word → Instr

/-- The opcode map, the rows of 30_encoding.md R72 in its order. -/
def opTable : List OpRow :=
  [ ⟨"NOP",     0xFFFF#16, 0x0000#16, fun _ => .nop⟩,
    ⟨"CLEAR",   0xFFFF#16, 0x1000#16, fun _ => .clear⟩,
    ⟨"START.M", 0xFFFF#16, 0x2000#16, fun _ => .startM⟩,
    ⟨"START.R", 0xF0FF#16, 0x3000#16, fun w => .startR (aField w)⟩,
    ⟨"PUSH",    0xFF00#16, 0x4000#16, fun w => .push (dField w)⟩,
    ⟨"READ",    0xF0FF#16, 0x5000#16, fun w => .read (aField w)⟩,
    ⟨"RDBUF",   0xF0FF#16, 0x6000#16, fun w => .rdbuf (aField w)⟩ ]

/-- The word is one of the row's: `(w & row.mask) == row.match` (30_encoding.md R73). -/
def OpRow.accepts (row : OpRow) (w : Word) : Bool := w &&& row.mask == row.pattern

/-- The group of 30_encoding.md R74 that a word outside every row belongs to. -/
def whyIllegal (w : Word) : IllegalWord :=
  if 7#4 ≤ opField w then .reservedOp
  else if opField w = 4#4 then .aNotZero
  else if opField w ≤ 2#4 then .operandOfNone
  else .dNotZero

/-- `decode` of 30_encoding.md R73: the first row that accepts the word, else ILLEGAL. -/
def decode (w : Word) : Decoded :=
  match opTable.find? (fun row => row.accepts w) with
  | some row => .legal (row.build w)
  | none => .illegal (whyIllegal w)

/-- The decoder asked about an instruction of `nbits` bits numbered as spec/opcode_table.json numbers them, every bit above
`nbits` being 0. The block's word is one parallel 16-bit word, so no byte order enters (20_memory.md R53). -/
def decodeTableWord (nbits w : Nat) : Option Instr :=
  match decode (BitVec.ofNat 16 (w % 2 ^ nbits)) with
  | .legal i => some i
  | .illegal _ => none

/-- A 4-bit operand in the field `a` of a word (30_encoding.md R70, R77). -/
def inField_a (n : Nibble) : Word := n.setWidth 16 <<< 8

/-- The word of a command (30_encoding.md R72, the column "encodes to" of R77). -/
def encode : Instr → Word
  | .nop => 0x0000#16
  | .clear => 0x1000#16
  | .startM => 0x2000#16
  | .startR n => 0x3000#16 ||| inField_a n
  | .push d => 0x4000#16 ||| d.setWidth 16
  | .read r => 0x5000#16 ||| inField_a r
  | .rdbuf i => 0x6000#16 ||| inField_a i

/-- The commands a well-formed line stands for (30_encoding.md R77, R78). -/
def AsmLine.expand : AsmLine → List Instr
  | .nop => [.nop]
  | .clear => [.clear]
  | .startM => [.startM]
  | .startR n => [.startR (BitVec.ofNat 4 n)]
  | .push b => [.push (BitVec.ofNat 8 b)]
  | .read sel => [.read (BitVec.ofNat 4 sel)]
  | .rdbuf i => [.rdbuf (BitVec.ofNat 4 i)]
  | .frameM bytes => .startM :: bytes.map (fun b => .push (BitVec.ofNat 8 b))
  | .frameR bytes => .startR (BitVec.ofNat 4 bytes.length) :: bytes.map (fun b => .push (BitVec.ofNat 8 b))

/-- The words of a line, none for a line the assembler refuses (30_encoding.md R77, R78). -/
def AsmLine.assemble (l : AsmLine) : Option (List Word) :=
  if l.wellFormed then some (l.expand.map encode) else none

end Sys2Proof
end

