-- ==== Sys2Proof/Machine/State.lean ====
section
/-! DEFINITION. The block's whole architectural state (10_state.md R22) as plain data, its reset values (R44), and the
reasons a step can stop. -/

namespace Sys2Proof.Machine

/-- `phase` (10_state.md R23), a 2-bit register. -/
inductive Phase where
  /-- IDLE = 0: no frame is being collected and no result is present. -/
  | idle
  /-- COLLECT = 1: a frame of `len` bytes is being collected. -/
  | collect
  /-- DONE = 2: the frame collected last has completed. -/
  | done
  /-- The bit pattern 3: it never occurs after a reset (R22, R40), and may stand before the first one
  (70_reset_and_hazards.md R211). -/
  | three
deriving DecidableEq, Repr

/-- `kind` and `res_kind` (10_state.md R24, R34), a 1-bit register. -/
inductive FrameKind where
  /-- MEAS = 0: the 9-byte measurement frame. -/
  | meas
  /-- RAW = 1: a frame of 1 to 9 bytes that is only checksum-checked. -/
  | raw
deriving DecidableEq, Repr

/-- The frame buffer `buf` (10_state.md R28; 20_memory.md R50): (address, byte) pairs in one canonical form, addresses
strictly rising, no entry 0x00, which an unlisted address reads as (its reset value, R44). -/
abbrev Memory := List Host.Cell

/-- What the input ports hold at one rising edge of `clk` (70_reset_and_hazards.md R215). -/
structure Pins where
  /-- Synchronous reset, active high. -/
  rst : Bool
  /-- `cmd` holds a command word at this edge. -/
  cmdValid : Bool
  /-- The command word. -/
  cmd : Word
deriving DecidableEq, Repr

/-- One thing the outside does to the block, taken by one step. -/
inductive HostInput where
  /-- A rising edge of `clk` with these pins (70_reset_and_hazards.md R214). -/
  | edge (p : Pins)
  /-- Power is lost and returns (60_exceptions.md R194; 70_reset_and_hazards.md R211; log 3). -/
  | powerCycle
deriving DecidableEq, Repr

/-- The state. The fields to `rdata` are the elements of 10_state.md R22, in its order, each of the width it gives; the
last three are the model's own (INVENTORY.md). -/
structure State where
  /-- The parser's mode (R23). -/
  phase : Phase
  /-- The kind of the frame being collected (R24). -/
  kind : FrameKind
  /-- The expected length of that frame (R25). -/
  len : Nibble
  /-- The buffer address the next PUSH writes (R26). -/
  idx : Nibble
  /-- The running sum of the non-final bytes (R27). -/
  sum : Byte
  /-- The frame buffer (R28). -/
  buf : Memory
  /-- The status code of the last completed frame (R29). -/
  status : Nibble
  /-- The success flag (R30). -/
  ok : Bool
  /-- The checksum verdict (R31). -/
  ckOk : Bool
  /-- The header observation, informational (R32). -/
  hdrOk : Bool
  /-- A completed result is present (R33). -/
  resValid : Bool
  /-- The kind of the last completed frame (R34). -/
  resKind : FrameKind
  /-- The computed checksum (R35). -/
  ckCalc : Byte
  /-- The received checksum (R35). -/
  ckRecv : Byte
  /-- The distance field, cm (R36). -/
  dist : Word
  /-- The signal-strength field (R36). -/
  strength : Word
  /-- The raw temperature field (R36). -/
  tempRaw : Word
  /-- The first host-protocol error recorded (R37). -/
  errCode : BitVec 3
  /-- The read-data register (R38). -/
  rdata : Word
  /-- What the outside will present, the next step's first (log 1). -/
  inputs : List HostInput
  /-- Power has come up and no reset has followed yet (70_reset_and_hazards.md R211; log 4). -/
  awaitingReset : Bool
  /-- How often power has come up again; the index of the free values of the next one (log 3). -/
  powerUps : Nat
deriving DecidableEq, Repr

/-- The machine right after reset: every element at its value in 10_state.md R44. -/
def State.reset : State where
  phase := .idle
  kind := .meas
  len := 0#4
  idx := 0#4
  sum := 0x00#8
  buf := []
  status := 0#4
  ok := false
  ckOk := false
  hdrOk := false
  resValid := false
  resKind := .meas
  ckCalc := 0x00#8
  ckRecv := 0x00#8
  dist := 0x0000#16
  strength := 0x0000#16
  tempRaw := 0x0000#16
  errCode := 0#3
  rdata := 0x0000#16
  inputs := []
  awaitingReset := false
  powerUps := 0

/-- Why the machine stops with a fault. The block itself has no traps (60_exceptions.md R183). -/
inductive Fault where
  /-- Raised by a PUSH in COLLECT whose `idx` is 9 or more: the buffer has no such address (20_memory.md R50). The
  spec's invariant (10_state.md R40) rules the state out after a reset. Safe (log 5). -/
  | bufferAddress
deriving DecidableEq, Repr

/-- Why the machine gives a step no meaning. -/
inductive Refusal where
  /-- Raised by an instruction that has no meaning in the model; no arm of `exec` raises it now. Safe. -/
  | notModelled (mnemonic : String)
  /-- Raised by a rising edge that presents a command word after power-up and before the first reset: "No rule of this
  spec gives a meaning to a command executed before the first reset" (70_reset_and_hazards.md R211). Safe (log 4). -/
  | commandBeforeReset
deriving DecidableEq, Repr

/-- The outcome of a step or of a meaning. -/
abbrev Result := Host.Outcome State Fault Refusal

end Sys2Proof.Machine
end

