-- ==== Sys2Proof/Machine/Flags.lean ====
section
/-! DEFINITION. The block's codes and flag computations: status codes (10_state.md R29), error codes
(60_exceptions.md R180), the checksum validator (41_frame.md R121), the classifier (R125), the header
observation (R128). -/

namespace Sys2Proof.Machine

/-- The names of the status codes (10_state.md R29). The block writes five of them: Ready, Checksum, Weak,
Strong, Flood. -/
inductive StatusCode where
  | ready | serial | header | checksum | timeout | pass | fail | i2cRead | i2cWrite | i2cLength
  | weak | strong | flood | measure
deriving DecidableEq, Repr

/-- The number of a status code (10_state.md R29). -/
def StatusCode.code : StatusCode → Nibble
  | .ready => 0#4
  | .serial => 1#4
  | .header => 2#4
  | .checksum => 3#4
  | .timeout => 4#4
  | .pass => 5#4
  | .fail => 6#4
  | .i2cRead => 7#4
  | .i2cWrite => 8#4
  | .i2cLength => 9#4
  | .weak => 10#4
  | .strong => 11#4
  | .flood => 12#4
  | .measure => 13#4

/-- The host-protocol errors (60_exceptions.md R180). -/
inductive HostError where
  /-- The word matches no row. -/
  | illegal
  /-- PUSH while `phase` is not COLLECT. -/
  | pushIdle
  /-- START.R with n = 0 or n of 10 or more. -/
  | badLen
  /-- READ with r of 8 or more, RDBUF with i of 9 or more. -/
  | badSel
deriving DecidableEq, Repr

/-- The code of an error (60_exceptions.md R180). -/
def HostError.code : HostError → BitVec 3
  | .illegal => 1#3
  | .pushIdle => 2#3
  | .badLen => 3#3
  | .badSel => 4#3

/-- The first `k` bytes summed mod 256 (41_frame.md R121). -/
def sumFirst (b : Nat → Byte) : Nat → Byte
  | 0 => 0x00#8
  | k + 1 => sumFirst b k + b k

/-- `checksum(b, n)`: the sum of every byte of an `n`-byte frame except the last, mod 256 (41_frame.md R121). -/
def checksum (b : Nat → Byte) (n : Nat) : Byte := sumFirst b (n - 1)

/-- `valid(b, n)` (41_frame.md R121). -/
def checksumValid (b : Nat → Byte) (n : Nat) : Bool := checksum b n == b (n - 1)

/-- `s16(v)`: a 16-bit pattern read as a two's-complement integer (00_scope.md R12; log 7). -/
def s16 (v : Word) : Int := v.toInt

/-- `classify(D, S)` in its fixed order: Weak, Strong, Flood, Ready (41_frame.md R125, R129). -/
def classify (D S : Word) : StatusCode :=
  if s16 D = -1 then .weak
  else if s16 S = -1 then .strong
  else if s16 D = -4 then .flood
  else .ready

/-- `hdr_ok` of a measurement frame, from its first two bytes (41_frame.md R128). -/
def headerSeen (b0 b1 : Byte) : Bool := b0 == Config.hdrByte && b1 == Config.hdrByte

/-- `ok`: the status is Ready (10_state.md R30). -/
def okOf (c : StatusCode) : Bool := c == .ready

/-- The status of a RAW frame: Ready on a match, Checksum otherwise (41_frame.md R130, R131). -/
def rawStatus (isMatch : Bool) : StatusCode := if isMatch then .ready else .checksum

end Sys2Proof.Machine
end

