-- ==== Sys2Proof/Machine/Ops.lean ====
section
/-! DEFINITION. The named operations over the frame buffer and the registers: reading and writing one byte, recording an error (the block's only
exception, 60_exceptions.md R181), reset, power-up, beginning a frame, and taking the next input. -/

namespace Sys2Proof.Machine

/-- What a buffer address that is not listed reads as: its reset value (10_state.md R28, R44). -/
def Memory.unlisted : Byte := 0x00#8

/-- `buf[a]` (10_state.md R28). -/
def Memory.read : Memory → Nat → Byte
  | [], _ => Memory.unlisted
  | (x, b) :: m, a => if x = a then b else Memory.read m a

/-- `buf[a] <- v`, keeping the canonical form. -/
def Memory.write : Memory → Nat → Byte → Memory
  | [], a, v => if v = Memory.unlisted then [] else [(a, v)]
  | (x, b) :: m, a, v =>
    if a < x then (if v = Memory.unlisted then (x, b) :: m else (a, v) :: (x, b) :: m)
    else if a = x then (if v = Memory.unlisted then m else (a, v) :: m)
    else (x, b) :: Memory.write m a v

/-- The canonical form from address `lo` on: addresses rising, inside the buffer, no entry an unlisted address's value. -/
def Memory.wfFrom : Nat → Memory → Bool
  | _, [] => true
  | lo, (x, b) :: m => decide (lo ≤ x) && decide (x < Config.bufBytes) && (b != Memory.unlisted) && Memory.wfFrom (x + 1) m

/-- The buffer is in its canonical form. -/
def Memory.wf (m : Memory) : Bool := Memory.wfFrom 0 m

/-- The byte write of PUSH at an address the host does not choose: none where the buffer has no such
address (20_memory.md R50; log 5). -/
def State.storeByte (s : State) (a : Nat) (v : Byte) : Option State :=
  if a < Config.bufBytes then some { s with buf := Memory.write s.buf a v } else none

/-- The value of `err_code` after an error with code `c`: the first one recorded is kept (60_exceptions.md R181). -/
def firstError (recorded c : BitVec 3) : BitVec 3 := if recorded = 0#3 then c else recorded

/-- `record_err(c)`: the first error is kept (60_exceptions.md R181). This is all that "taking an exception" is on this
block: no control transfer, no saved state, no change of mode (R183). -/
def State.recordErr (s : State) (e : HostError) : State :=
  { s with errCode := firstError s.errCode e.code }

/-- `rdata <- v` (10_state.md R38). -/
def State.setRdata (s : State) (v : Word) : State := { s with rdata := v }

/-- Every element of 10_state.md R44 to its reset value; what the outside will present is no element of the block. -/
def State.clearElements (s : State) : State :=
  { State.reset with inputs := s.inputs, awaitingReset := s.awaitingReset, powerUps := s.powerUps }

/-- A rising edge with `rst` = 1 (70_reset_and_hazards.md R210): every element to its reset value, and a reset has happened. -/
def State.resetEdge (s : State) : State := { s.clearElements with awaitingReset := false }

/-- START: begin a frame of this kind and length (40_control.md R103, R104). -/
def State.startFrame (s : State) (kind : FrameKind) (len : Nibble) : State :=
  { s with kind := kind, len := len, idx := 0#4, sum := 0x00#8, phase := .collect, resValid := false }

/-- The 2-bit register `phase` from its bits (10_state.md R22). -/
def Phase.ofBits (b : BitVec 2) : Phase :=
  if b = 0#2 then .idle else if b = 1#2 then .collect else if b = 2#2 then .done else .three

/-- The bits of `phase` (10_state.md R22). -/
def Phase.bits : Phase → BitVec 2
  | .idle => 0#2
  | .collect => 1#2
  | .done => 2#2
  | .three => 3#2

/-- A frame kind from its bit (10_state.md R22). -/
def FrameKind.ofBit (b : Bool) : FrameKind := if b then .raw else .meas

/-- The bit of a frame kind (10_state.md R22). -/
def FrameKind.bit : FrameKind → Bool
  | .meas => false
  | .raw => true

/-- A buffer holding any bytes: `f k` at each address `k` below `n`. -/
def Memory.ofBytes (f : Nat → Byte) : Nat → Memory
  | 0 => []
  | n + 1 => Memory.write (Memory.ofBytes f n) n (f n)

/-- Power is lost and returns (60_exceptions.md R194): every element holds any value of its width and the block awaits its
first reset (70_reset_and_hazards.md R211). The values are free (log 3). -/
def State.powerUp (s : State) : State :=
  let v := Config.powerUpValue s.powerUps
  { phase := Phase.ofBits ((v 0).setWidth 2)
    kind := FrameKind.ofBit ((v 1).getLsbD 0)
    len := (v 2).setWidth 4
    idx := (v 3).setWidth 4
    sum := (v 4).setWidth 8
    buf := Memory.ofBytes (fun k => (v (100 + k)).setWidth 8) Config.bufBytes
    status := (v 5).setWidth 4
    ok := (v 6).getLsbD 0
    ckOk := (v 7).getLsbD 0
    hdrOk := (v 8).getLsbD 0
    resValid := (v 9).getLsbD 0
    resKind := FrameKind.ofBit ((v 10).getLsbD 0)
    ckCalc := (v 11).setWidth 8
    ckRecv := (v 12).setWidth 8
    dist := v 13
    strength := v 14
    tempRaw := v 15
    errCode := (v 16).setWidth 3
    rdata := v 17
    inputs := s.inputs
    awaitingReset := true
    powerUps := s.powerUps + 1 }

/-- Pins at which nothing happens: `rst` = 0 and `cmd_valid` = 0 (70_reset_and_hazards.md R214). -/
def Pins.idle : Pins := ⟨false, false, 0x0000#16⟩

/-- Pins that present one command word (30_encoding.md R70: "one word per step on `cmd[15:0]`, with `cmd_valid = 1`"). -/
def Pins.command (w : Word) : Pins := ⟨false, true, w⟩

/-- What the outside presents to the next step: the first of the listed inputs, and an idle edge after the last (log 2). -/
def State.nextInput (s : State) : HostInput :=
  match s.inputs with
  | [] => .edge Pins.idle
  | i :: _ => i

/-- The state with that input taken off the list. -/
def State.dropInput (s : State) : State := { s with inputs := s.inputs.tail }

/-- The state whose next rising edge presents the command word `w` in place of what it would have presented. -/
def State.presentWord (s : State) (w : Word) : State :=
  { s with inputs := .edge (Pins.command w) :: s.inputs.tail }

/-- The output ports (70_reset_and_hazards.md R215). -/
structure Outputs where
  rdata : Word
  resValidO : Bool
  errO : Bool
deriving DecidableEq, Repr

/-- The outputs, driven from state (10_state.md R38, R39; 70_reset_and_hazards.md R214). -/
def State.outputs (s : State) : Outputs where
  rdata := s.rdata
  resValidO := s.resValid
  errO := s.errCode != 0#3

end Sys2Proof.Machine
end

