-- ==== Sys2Proof/Machine/Operands.lean ====
section
/-! DEFINITION. Every operand form and every value the block assembles: the checks on `a` (30_encoding.md R71, R75), little-endian fields
(41_frame.md R122), the temperature conversion (R123) and the words READ selects (42_readout.md R160 to R164). -/

namespace Sys2Proof.Machine

/-- `zext_16` of a byte (00_scope.md R12). -/
def zext16 (b : Byte) : Word := b.setWidth 16

/-- `le16(lo, hi)`: the low byte is the lower-addressed one (00_scope.md R12; 20_memory.md R52; 41_frame.md R122). -/
def le16 (lo hi : Byte) : Word := hi ++ lo

/-- `x >>a n`: the floor of x / 2^n (00_scope.md R12). -/
def shiftRightArith (x : Int) (n : Nat) : Int := x / (2 ^ n : Nat)

/-- `u16(x)`: the integer mod 2^16 as a 16-bit pattern (00_scope.md R12). -/
def u16 (x : Int) : Word := BitVec.ofInt 16 x

/-- `celsius(T)` (41_frame.md R123), the shift arithmetic (log 7). -/
def celsius (T : Word) : Word := u16 (shiftRightArith (s16 T) 3 - 256)

/-- The length operand of START.R is one it accepts: 1 to 9 (40_control.md R104). -/
def rawLenOk (n : Nibble) : Bool := decide (Config.rawMinLen ≤ n.toNat) && decide (n.toNat ≤ Config.rawMaxLen)

/-- The STATUS word (42_readout.md R161), bit 15 first; bits 15 and 11 read 0. -/
def State.statusWord (s : State) : Word :=
  0#1 ++ s.errCode ++ 0#1 ++ s.phase.bits ++ BitVec.ofBool s.resKind.bit ++ BitVec.ofBool s.resValid ++
    BitVec.ofBool s.hdrOk ++ BitVec.ofBool s.ckOk ++ BitVec.ofBool s.ok ++ s.status

/-- The CTRL word (42_readout.md R163), bit 15 first; bits 15 to 9 read 0. -/
def State.ctrlWord (s : State) : Word := 0#7 ++ BitVec.ofBool s.kind.bit ++ s.len ++ s.idx

/-- The value READ copies, by selector (42_readout.md R160); none outside 0 to 7 (20_memory.md R51). -/
def State.selectorValue (s : State) (r : Nibble) : Option Word :=
  match r.toNat with
  | 0 => some s.statusWord
  | 1 => some s.dist
  | 2 => some s.strength
  | 3 => some s.tempRaw
  | 4 => some (celsius s.tempRaw)
  | 5 => some (s.ckCalc ++ s.ckRecv)
  | 6 => some s.ctrlWord
  | 7 => some (zext16 s.sum)
  | _ => none

/-- The value RDBUF copies, by address (42_readout.md R162); none outside 0 to 8 (20_memory.md R50). -/
def State.bufferValue (s : State) (i : Nibble) : Option Word :=
  if i.toNat < Config.bufBytes then some (zext16 (Memory.read s.buf i.toNat)) else none

/-- The end of READ and RDBUF: the value to `rdata`, or 0x0000 and BAD_SEL where there is none
(42_readout.md R160, R162). -/
def State.readOut (s : State) (v : Option Word) : State :=
  match v with
  | some w => s.setRdata w
  | none => (s.setRdata 0x0000#16).recordErr .badSel

end Sys2Proof.Machine
end

