-- ==== Sys2Proof/Machine/Control.lean ====
section
/-! DEFINITION. The control commands: NOP, CLEAR, START.M, START.R (40_control.md). -/

namespace Sys2Proof.Machine

/-- NOP: no state change (40_control.md R101). -/
def execNop (s : State) : Result := .next s

/-- CLEAR: every element of the block to its reset value (40_control.md R102). -/
def execClear (s : State) : Result := .next s.clearElements

/-- START.M: begin a measurement frame, in any phase (40_control.md R103). -/
def execStartM (s : State) : Result := .next (s.startFrame .meas Config.measLen)

/-- START.R n: begin a raw frame of n bytes, or BAD_LEN and no other change (40_control.md R104). -/
def execStartR (n : Nibble) (s : State) : Result :=
  if rawLenOk n then .next (s.startFrame .raw n) else .next (s.recordErr .badLen)

end Sys2Proof.Machine
end

