-- ==== Sys2Proof/Machine/Frame.lean ====
section
/-! DEFINITION. Frame parsing: PUSH and completion (41_frame.md). In the completion operations `s.buf` is the
spec's `buf'`, the buffer after this step's byte write. -/

namespace Sys2Proof.Machine

/-- What every completion writes (41_frame.md R124). -/
def State.latchVerdict (s : State) (isMatch : Bool) (d : Byte) : State :=
  { s with ckCalc := s.sum, ckRecv := d, ckOk := isMatch, resKind := s.kind, resValid := true, phase := .done }

/-- `status` and `ok` (41_frame.md R126, R127, R130, R131; 10_state.md R30). -/
def State.setOutcome (s : State) (c : StatusCode) : State := { s with status := c.code, ok := okOf c }

/-- The distance field of the frame in the buffer (41_frame.md R122). -/
def State.frameDistance (s : State) : Word := le16 (Memory.read s.buf 2) (Memory.read s.buf 3)

/-- The strength field of the frame in the buffer (41_frame.md R122). -/
def State.frameStrength (s : State) : Word := le16 (Memory.read s.buf 4) (Memory.read s.buf 5)

/-- The raw temperature field of the frame in the buffer (41_frame.md R122). -/
def State.frameTempRaw (s : State) : Word := le16 (Memory.read s.buf 6) (Memory.read s.buf 7)

/-- The field registers take the frame's three fields (41_frame.md R127). -/
def State.latchFields (s : State) : State :=
  { s with dist := s.frameDistance, strength := s.frameStrength, tempRaw := s.frameTempRaw }

/-- `complete_meas(match)`: mismatch (41_frame.md R126), match (R127), and the header flag in both cases (R128). -/
def State.completeMeas (s : State) (isMatch : Bool) : State :=
  let t := { s with hdrOk := headerSeen (Memory.read s.buf 0) (Memory.read s.buf 1) }
  if isMatch then t.latchFields.setOutcome (classify s.frameDistance s.frameStrength)
  else t.setOutcome .checksum

/-- `complete_raw(match)` (41_frame.md R130, R131). -/
def State.completeRaw (s : State) (isMatch : Bool) : State :=
  { s with hdrOk := false }.setOutcome (rawStatus isMatch)

/-- `complete(d)` (41_frame.md R124). -/
def State.complete (s : State) (d : Byte) : State :=
  let isMatch := s.sum == d
  match s.kind with
  | .meas => (s.latchVerdict isMatch d).completeMeas isMatch
  | .raw => (s.latchVerdict isMatch d).completeRaw isMatch

/-- PUSH after its byte is in the buffer: a non-final byte is summed, the final one completes the frame (41_frame.md R120). -/
def State.acceptByte (s : State) (d : Byte) : State :=
  if s.idx.toNat + 1 < s.len.toNat then { s with sum := s.sum + d, idx := s.idx + 1#4 }
  else { s with idx := s.len }.complete d

/-- PUSH d (41_frame.md R120): PUSH_IDLE outside COLLECT, else the byte goes to `buf[idx]`. An `idx` outside the buffer,
which 10_state.md R40 rules out, faults (log 5). -/
def execPush (d : Byte) (s : State) : Result :=
  if s.phase = .collect then
    match s.storeByte s.idx.toNat d with
    | some t => .next (t.acceptByte d)
    | none => .fault .bufferAddress
  else .next (s.recordErr .pushIdle)

end Sys2Proof.Machine
end

