-- ==== Sys2Proof/Machine/Readout.lean ====
section
/-! DEFINITION. The read-out commands: READ, RDBUF (42_readout.md). -/

namespace Sys2Proof.Machine

/-- READ r: the selected value to `rdata`, or 0x0000 and BAD_SEL (42_readout.md R160). -/
def execRead (r : Nibble) (s : State) : Result := .next (s.readOut (s.selectorValue r))

/-- RDBUF i: the buffer byte, zero-extended, to `rdata`, or 0x0000 and BAD_SEL (42_readout.md R162). -/
def execRdbuf (i : Nibble) (s : State) : Result := .next (s.readOut (s.bufferValue i))

end Sys2Proof.Machine
end

