-- ==== Sys2Proof/Machine/Dispatch.lean ====
section
/-! DEFINITION. The meaning of every command, one arm for each row of spec/opcode_table.json. -/

namespace Sys2Proof.Machine

def exec (i : Instr) (s : State) : Host.Outcome State Fault Refusal :=
  match i with
  | .nop => Sys2Proof.Machine.execNop s
  | .clear => Sys2Proof.Machine.execClear s
  | .startM => Sys2Proof.Machine.execStartM s
  | .startR n => Sys2Proof.Machine.execStartR n s
  | .push d => Sys2Proof.Machine.execPush d s
  | .read r => Sys2Proof.Machine.execRead r s
  | .rdbuf a => Sys2Proof.Machine.execRdbuf a s

end Sys2Proof.Machine
end

