-- ==== Sys2Proof/Machine/Port.lean ====
section
/-! DEFINITION. What the block does with what the outside presents: a command word (40_control.md R100), a rising edge of
`clk` (70_reset_and_hazards.md R210, R214), a loss and return of power (R211). `step` only calls it. -/

namespace Sys2Proof.Machine

/-- `step(w)` of 40_control.md R100: decode, then the command's meaning or `record_err(ILLEGAL)` (30_encoding.md R74). -/
def runWord (w : Word) (s : State) : Result :=
  match decode w with
  | .legal i => exec i s
  | .illegal _ => .next (s.recordErr .illegal)

/-- One rising edge of `clk`: `rst` overrides any command (70_reset_and_hazards.md R210; 60_exceptions.md R187), `cmd_valid` runs
the word, else every element keeps its value (70_reset_and_hazards.md R214). A command before the first reset has no
meaning in the spec (R211; log 4). -/
def clockEdge (p : Pins) (s : State) : Result :=
  if p.rst then .next s.resetEdge
  else if p.cmdValid then (if s.awaitingReset then .refused .commandBeforeReset else runWord p.cmd s)
  else .next s

/-- What one input does. -/
def applyInput (i : HostInput) (s : State) : Result :=
  match i with
  | .edge p => clockEdge p s
  | .powerCycle => .next s.powerUp

end Sys2Proof.Machine
end

