-- ==== Sys2Proof/Machine/Step.lean ====
section
/-! DEFINITION. One step: the next input is taken and has its effect. It only calls Machine/Ops.lean and
Machine/Port.lean. -/

namespace Sys2Proof.Machine

/-- One step of the machine: one rising edge of `clk`, or a loss and return of power (70_reset_and_hazards.md R214, R218; log 6). -/
def step (s : State) : Host.Outcome State Fault Refusal := applyInput s.nextInput s.dropInput

/-- The state whose next rising edge presents the command word whose low `nbits` bits are those of `w`, the rest 0 (log 1).
A state that awaits its first reset still awaits it, and runs no command (log 4). -/
def State.withFetchWord (s : State) (nbits w : Nat) : State := s.presentWord (BitVec.ofNat 16 (w % 2 ^ nbits))

end Sys2Proof.Machine
end

