-- ==== Sys2Proof/Machine/Assembler.lean ====
section
/-! DEFINITION. The text of the assembler (30_encoding.md R77, R78): one command a line, mnemonics in either case, `;` starts
a comment. What R77 does not fix of the text (blanks, the case of selector names and digits, the comma between bytes) is
log 8. -/

namespace Sys2Proof.Machine

/-- What one line of text is. -/
inductive ParsedLine where
  /-- Nothing but blanks and a comment. -/
  | blank
  /-- A command or a pseudo-instruction, its operands not yet held against their fields. -/
  | line (l : AsmLine)
  /-- No line of the syntax. -/
  | syntaxError
deriving DecidableEq, Repr

/-- A space or a tab. -/
def isBlankChar (c : Char) : Bool := c == ' ' || c == '\t'

/-- The text before a comment (30_encoding.md R77). -/
def stripComment (cs : List Char) : List Char := cs.takeWhile (· != ';')

/-- The text without the blanks at its ends. -/
def trimBlanks (cs : List Char) : List Char := ((cs.dropWhile isBlankChar).reverse.dropWhile isBlankChar).reverse

/-- The parts of a text between commas. -/
def splitCommas : List Char → List (List Char)
  | [] => [[]]
  | c :: cs =>
    if c == ',' then [] :: splitCommas cs
    else match splitCommas cs with
      | [] => [[c]]
      | part :: parts => (c :: part) :: parts

/-- An ASCII letter in upper case: mnemonics are case-insensitive (30_encoding.md R77). -/
def upperChar (c : Char) : Char := if 97 ≤ c.toNat ∧ c.toNat ≤ 122 then Char.ofNat (c.toNat - 32) else c

/-- The value of a decimal digit. -/
def decimalDigit (c : Char) : Option Nat := if 48 ≤ c.toNat ∧ c.toNat ≤ 57 then some (c.toNat - 48) else none

/-- The value of a hexadecimal digit, of either case. -/
def hexDigit (c : Char) : Option Nat :=
  let u := upperChar c
  if 65 ≤ u.toNat ∧ u.toNat ≤ 70 then some (u.toNat - 55) else decimalDigit c

/-- The number that digits after `acc` spell, none where one is no digit. -/
def digitsValue (base : Nat) (digit : Char → Option Nat) : Nat → List Char → Option Nat
  | acc, [] => some acc
  | acc, c :: cs =>
    match digit c with
    | some d => digitsValue base digit (acc * base + d) cs
    | none => none

/-- A decimal number, at least one digit. -/
def parseDecimal (cs : List Char) : Option Nat := if cs.isEmpty then none else digitsValue 10 decimalDigit 0 cs

/-- A byte operand: hexadecimal with `0x`, or decimal (30_encoding.md R77). -/
def parseByte (cs : List Char) : Option Nat :=
  match cs with
  | '0' :: 'x' :: ds => if ds.isEmpty then none else digitsValue 16 hexDigit 0 ds
  | _ => parseDecimal cs

/-- Byte operands, none where one is no number. -/
def parseBytes : List (List Char) → Option (List Nat)
  | [] => some []
  | part :: parts =>
    match parseByte part, parseBytes parts with
    | some b, some bs => some (b :: bs)
    | _, _ => none

/-- The selector names, in the order of their numbers (42_readout.md R160). -/
def selectorNames : List String := ["STATUS", "DIST", "STRENGTH", "TEMPRAW", "TEMPC", "CKSUM", "CTRL", "SUM"]

/-- A selector: its name or its number (30_encoding.md R77). -/
def parseSelector (cs : List Char) : Option Nat :=
  match selectorNames.findIdx? (fun name => name.toList == cs) with
  | some r => some r
  | none => parseDecimal cs

/-- A command without operands. -/
def noOperand (operands : List (List Char)) (l : AsmLine) : ParsedLine :=
  if operands.isEmpty then .line l else .syntaxError

/-- A command with one operand. -/
def oneOperand (operands : List (List Char)) (parse : List Char → Option Nat) (l : Nat → AsmLine) : ParsedLine :=
  match operands with
  | [part] =>
    match parse part with
    | some n => .line (l n)
    | none => .syntaxError
  | _ => .syntaxError

/-- A pseudo-instruction, which takes bytes. -/
def byteOperands (operands : List (List Char)) (l : List Nat → AsmLine) : ParsedLine :=
  match parseBytes operands with
  | some bs => .line (l bs)
  | none => .syntaxError

/-- A mnemonic in upper case with its operands (30_encoding.md R77, R78). -/
def parseCommand (mnemonic : List Char) (operands : List (List Char)) : ParsedLine :=
  if mnemonic = "NOP".toList then noOperand operands .nop
  else if mnemonic = "CLEAR".toList then noOperand operands .clear
  else if mnemonic = "START.M".toList then noOperand operands .startM
  else if mnemonic = "START.R".toList then oneOperand operands parseDecimal .startR
  else if mnemonic = "PUSH".toList then oneOperand operands parseByte .push
  else if mnemonic = "READ".toList then oneOperand operands parseSelector .read
  else if mnemonic = "RDBUF".toList then oneOperand operands parseDecimal .rdbuf
  else if mnemonic = "FRAME.M".toList then byteOperands operands .frameM
  else if mnemonic = "FRAME.R".toList then byteOperands operands .frameR
  else .syntaxError

/-- The operands of a line: the trimmed parts between commas, none where there is no text. -/
def splitOperands (cs : List Char) : List (List Char) :=
  if (trimBlanks cs).isEmpty then [] else (splitCommas cs).map trimBlanks

/-- One line of assembler text (30_encoding.md R77). -/
def parseLine (text : List Char) : ParsedLine :=
  let cs := trimBlanks (stripComment text)
  if cs.isEmpty then .blank
  else
    let mnemonic := cs.takeWhile (fun c => !isBlankChar c)
    parseCommand (mnemonic.map upperChar) (splitOperands (cs.drop mnemonic.length))

/-- The words of one line of assembler text: none where the assembler refuses it, no words for a blank line
(30_encoding.md R77, R78). -/
def assembleText (text : List Char) : Option (List Word) :=
  match parseLine text with
  | .blank => some []
  | .line l => l.assemble
  | .syntaxError => none

end Sys2Proof.Machine
end

