-- ==== Sys2Proof/Safety.lean ====
section
/-! DEFINITION. What claims are stated in: the spec's invariants (10_state.md R40), the source's frame decoder as a pure
function of a frame's bytes (41_frame.md R121 to R133), what a safe run is, and what a host may trust
(70_reset_and_hazards.md R217). -/

namespace Sys2Proof.Machine

/-- The bytes of the buffer by address. -/
def State.bytes (s : State) : Nat → Byte := Memory.read s.buf

/-- The status codes the block writes, and 0 from reset (10_state.md R29, R40). -/
def statusReachable (c : Nibble) : Prop := c = 0#4 ∨ c = 3#4 ∨ c = 10#4 ∨ c = 11#4 ∨ c = 12#4

/-- The conditions of 10_state.md R40, one field for each clause. -/
structure State.ReachableForm (s : State) : Prop where
  idle : s.phase = .idle → s.idx = 0#4 ∧ s.len = 0#4 ∧ s.sum = 0x00#8
  collect : s.phase = .collect → 1 ≤ s.len.toNat ∧ s.len.toNat ≤ 9 ∧ s.idx.toNat < s.len.toNat ∧ s.resValid = false ∧
    s.sum = sumFirst s.bytes s.idx.toNat
  done : s.phase = .done → 1 ≤ s.len.toNat ∧ s.len.toNat ≤ 9 ∧ s.idx = s.len ∧ s.resValid = true ∧ s.sum = s.ckCalc
  measLen : s.kind = .meas → s.phase ≠ .idle → s.len = 9#4
  phaseLegal : s.phase ≠ .three
  statusLegal : statusReachable s.status
  errLegal : s.errCode.toNat ≤ 4
  validDone : s.resValid = true → s.phase = .done

/-- What holds of every state: the buffer has its canonical form, and after a reset (70_reset_and_hazards.md R211: not
before the first one) the conditions of 10_state.md R40. -/
structure State.Inv (s : State) : Prop where
  bufWf : Memory.wf s.buf = true
  form : s.awaitingReset = false → s.ReachableForm

/-- The source's Measurement (10_state.md R36). -/
structure Measurement where
  distance : Word
  signalStrength : Word
  temperatureRaw : Word
deriving DecidableEq, Repr

/-- The source's `decode(frame)`: a Measurement where the checksum passes, and a status code in every case
(41_frame.md R121, R122, R125 to R127, R133). It reads the frame's nine bytes and no state. -/
def decodeFrame (b : Nat → Byte) : Option Measurement × StatusCode :=
  if checksumValid b 9 then
    (some ⟨le16 (b 2) (b 3), le16 (b 4) (b 5), le16 (b 6) (b 7)⟩, classify (le16 (b 2) (b 3)) (le16 (b 4) (b 5)))
  else (none, .checksum)

/-- The latched results are those of the frame that stands in the buffer (10_state.md R30 to R36; 41_frame.md R124 to R131). -/
structure State.ResultsOfBuffer (s : State) : Prop where
  kindOf : s.resKind = s.kind
  ckCalcOf : s.ckCalc = checksum s.bytes s.len.toNat
  ckRecvOf : s.ckRecv = s.bytes (s.len.toNat - 1)
  ckOkOf : s.ckOk = checksumValid s.bytes s.len.toNat
  okOf : s.ok = true ↔ s.status = 0#4
  hdrOkOf : s.hdrOk = true ↔ s.kind = .meas ∧ s.bytes 0 = 0x59#8 ∧ s.bytes 1 = 0x59#8
  measStatus : s.kind = .meas → s.status = (decodeFrame s.bytes).2.code
  measFields : s.kind = .meas → ∀ m, (decodeFrame s.bytes).1 = some m →
    s.dist = m.distance ∧ s.strength = m.signalStrength ∧ s.tempRaw = m.temperatureRaw
  rawStatus : s.kind = .raw → s.status = if checksumValid s.bytes s.len.toNat then 0#4 else 3#4

/-- In DONE, after a reset, the results are those of the frame in the buffer. -/
def State.ResultsSound (s : State) : Prop := s.awaitingReset = false → s.phase = .done → s.ResultsOfBuffer

/-- A run of `n` steps is safe when no step stops. -/
def State.safeFor (s : State) (n : Nat) : Prop := ∃ t, Host.Core.run Sys2Proof.core n s = .next t

/-- The platform's duty (70_reset_and_hazards.md R211): where the block awaits its first reset, the next input presents no
command word. -/
def State.resetFirst (s : State) : Prop :=
  s.awaitingReset = true → ∀ p, s.nextInput = .edge p → p.rst = true ∨ p.cmdValid = false

/-- Every element of the block holds its reset value (10_state.md R44), the buffer read byte by byte. -/
structure State.AtResetValues (t : State) : Prop where
  frame : t.phase = .idle ∧ t.kind = .meas ∧ t.len = 0#4 ∧ t.idx = 0#4 ∧ t.sum = 0x00#8
  buffer : ∀ a, Memory.read t.buf a = 0x00#8
  flags : t.status = 0#4 ∧ t.ok = false ∧ t.ckOk = false ∧ t.hdrOk = false ∧ t.resValid = false ∧ t.resKind = .meas
  results : t.ckCalc = 0x00#8 ∧ t.ckRecv = 0x00#8 ∧ t.dist = 0x0000#16 ∧ t.strength = 0x0000#16 ∧ t.tempRaw = 0x0000#16
  errorAndRead : t.errCode = 0#3 ∧ t.rdata = 0x0000#16

/-- The buffer after PUSH has written `d` at the address `idx`, byte by byte: the spec's `buf'` (41_frame.md R120, R124). -/
def State.pushedBytes (s : State) (d : Byte) : Nat → Byte := fun a => if a = s.idx.toNat then d else s.bytes a

/-- The PUSH of the next byte is the final one of its frame: not `idx + 1 < len` (41_frame.md R120). -/
def State.finalByte (s : State) : Prop := ¬ s.idx.toNat + 1 < s.len.toNat

/-- The error condition of a command in a state, by its code, 0 where there is none (60_exceptions.md R180). -/
def errorOf (i : Instr) (s : State) : BitVec 3 :=
  match i with
  | .nop => 0#3
  | .clear => 0#3
  | .startM => 0#3
  | .startR n => if n.toNat = 0 ∨ 10 ≤ n.toNat then 3#3 else 0#3
  | .push _ => if s.phase = .collect then 0#3 else 2#3
  | .read r => if 8 ≤ r.toNat then 4#3 else 0#3
  | .rdbuf a => if 9 ≤ a.toNat then 4#3 else 0#3

/-- The host may trust `status` and `ok`: they belong to the current frame (70_reset_and_hazards.md R217). -/
def State.statusTrusted (s : State) : Bool := s.resValid

/-- The host may trust `dist`, `strength` and `temp_raw`: the current frame is a measurement whose checksum passed
(70_reset_and_hazards.md R217; 10_state.md R36). -/
def State.fieldsTrusted (s : State) : Bool := s.resValid && s.resKind == .meas && s.ckOk

end Sys2Proof.Machine
end

