-- ==== Sys2Proof/Certificates/Slice0/Obligations.lean ====
section
/-! DEFINITION. The statements about the block, one for each entry of OBLIGATIONS.json. -/

open Sys2Proof Sys2Proof.Machine

/-! ### Reset, input edges and what a step runs -/

/-- The machine after reset meets the spec's invariant and has no result to be wrong about (10_state.md R40, R44). -/
def Obligations.InvariantHoldsAtReset : Prop := State.reset.Inv ∧ State.reset.ResultsSound

/-- 10_state.md R44: `State.reset`, a rising edge with `rst` = 1 from any state, and CLEAR in any state leave every element at
its reset value; TEMPC then reads 0xFF00. -/
def Obligations.ResetAndClearLeaveResetValues : Prop :=
  State.reset.AtResetValues ∧
  (∀ s p rest, s.inputs = .edge p :: rest → p.rst = true → ∃ t, step s = .next t ∧ t.AtResetValues) ∧
  (∀ s, ∃ t, exec .clear s = .next t ∧ t.AtResetValues) ∧
  (∀ s, s.AtResetValues → exec (.read 4#4) s = .next { s with rdata := 0xFF00#16 })

/-- 70_reset_and_hazards.md R210: any number of edges with `rst` = 1, whatever `cmd_valid` and `cmd` are, leave the reset
values; one such edge has the effect of CLEAR (and ends the wait for the first reset, log 4). -/
def Obligations.ResetEdgeOverridesCommand : Prop :=
  (∀ (ps : List Pins) (s : State) (rest : List HostInput), ps ≠ [] → (∀ p ∈ ps, p.rst = true) →
    s.inputs = ps.map .edge ++ rest →
    ∃ t, Host.Core.run Sys2Proof.core ps.length s = .next t ∧ t.AtResetValues ∧ t.inputs = rest ∧
      t.awaitingReset = false ∧ t.powerUps = s.powerUps) ∧
  (∀ (s : State) (p : Pins) (rest : List HostInput), s.inputs = .edge p :: rest → p.rst = true →
    ∃ u, exec .clear { s with inputs := rest } = .next u ∧ step s = .next { u with awaitingReset := false })

/-- 40_control.md R100: at an edge with `cmd_valid` = 1 and `rst` = 0, after a reset, a step is the meaning of the decoded
command, or `record_err(ILLEGAL)`; with `cmd_valid` = 0 nothing changes; with `rst` = 1 the command does not matter. In each case
the input is taken off the list (log 1). -/
def Obligations.StepRunsPresentedWord : Prop :=
  ∀ (s : State) (p : Pins) (rest : List HostInput), s.inputs = .edge p :: rest →
    (p.rst = false → p.cmdValid = true → s.awaitingReset = false →
      (∀ i, decode p.cmd = .legal i → step s = exec i { s with inputs := rest }) ∧
      (∀ why, decode p.cmd = .illegal why →
        step s = .next { s with inputs := rest, errCode := if s.errCode = 0#3 then 1#3 else s.errCode })) ∧
    (p.rst = false → p.cmdValid = false → step s = .next { s with inputs := rest }) ∧
    (p.rst = true → ∀ v w, step s = step { s with inputs := .edge ⟨true, v, w⟩ :: rest })

/-- Any number of edges with neither `rst` nor `cmd_valid` leave every element as it was, before and after the first reset
(60_exceptions.md R194, 70_reset_and_hazards.md R214). -/
def Obligations.IdleEdgesHoldState : Prop :=
  ∀ (ps : List Pins) (s : State) (rest : List HostInput), (∀ p ∈ ps, p.rst = false ∧ p.cmdValid = false) →
    s.inputs = ps.map .edge ++ rest →
    Host.Core.run Sys2Proof.core ps.length s = .next { s with inputs := rest }

/-- The model's choice (log 2): after the last of the listed inputs the outside presents idle edges, so nothing changes. -/
def Obligations.NoInputLeavesStateUnchanged : Prop := ∀ s : State, s.inputs = [] → step s = .next s

/-- The model's choice (logs 3 and 4; 70_reset_and_hazards.md R211 leaves it open): after power-up the block awaits a reset whatever
the free values are, a command word is then refused, and an edge with `rst` = 1 ends the wait. -/
def Obligations.CommandBeforeFirstResetRefused : Prop :=
  (∀ (s : State) (rest : List HostInput), s.inputs = .powerCycle :: rest →
    ∃ t, step s = .next t ∧ t.awaitingReset = true ∧ t.inputs = rest ∧ Memory.wf t.buf = true) ∧
  (∀ (s : State) (p : Pins) (rest : List HostInput), s.inputs = .edge p :: rest → s.awaitingReset = true →
    (p.rst = false → p.cmdValid = true → step s = .refused .commandBeforeReset) ∧
    (p.rst = true → ∃ t, step s = .next t ∧ t.awaitingReset = false))

/-! ### Encoding -/

/-- Decoding and encoding agree in both directions, for every command with every operand, and for every word
(30_encoding.md R72, R73). -/
def Obligations.DecodeIffEncode : Prop := ∀ (i : Instr) (w : Word), decode w = .legal i ↔ w = encode i

/-- 30_encoding.md R74: the illegal words are exactly the four groups, 65536 − 307 of them (the legal ones are 307), and one of them
records ILLEGAL and changes nothing else. -/
def Obligations.IllegalWordsRecordIllegal : Prop :=
  (∀ w : Word, (∃ why, decode w = .illegal why) ↔
    (7 ≤ (opField w).toNat ∨
      ((opField w).toNat ≤ 2 ∧ (aField w ≠ 0#4 ∨ dField w ≠ 0#8)) ∨
      ((opField w = 3#4 ∨ opField w = 5#4 ∨ opField w = 6#4) ∧ dField w ≠ 0#8) ∨
      (opField w = 4#4 ∧ aField w ≠ 0#4))) ∧
  (∃ words : List Word, words.Nodup ∧ words.length = 307 ∧ ∀ w, w ∈ words ↔ ∃ i, decode w = .legal i) ∧
  (∀ (w : Word) (s : State) (why : IllegalWord), decode w = .illegal why →
    runWord w s = .next { s with errCode := if s.errCode = 0#3 then 1#3 else s.errCode })

/-- Words written out from the patterns of 30_encoding.md R72 decode to the commands they stand for. -/
def Obligations.SpecWordsDecode : Prop :=
  decode 0b0000000000000000#16 = .legal .nop ∧
  decode 0b0001000000000000#16 = .legal .clear ∧
  decode 0b0010000000000000#16 = .legal .startM ∧
  decode 0b0011011100000000#16 = .legal (.startR 7#4) ∧
  decode 0b0100000001100100#16 = .legal (.push 0x64#8) ∧
  decode 0b0101010000000000#16 = .legal (.read 4#4) ∧
  decode 0b0110100000000000#16 = .legal (.rdbuf 8#4) ∧
  decode 0b0011011100000001#16 = .illegal .dNotZero

/-- The words of an assembler line as numbers, and the operands it refuses (30_encoding.md R77), and the text after a `;` is no part of
the line. -/
def Obligations.AssemblerLineWords : Prop :=
  (∀ n : Nat, (n < 16 → (AsmLine.startR n).assemble = some [BitVec.ofNat 16 (0x3000 + n * 256)] ∧
      (AsmLine.read n).assemble = some [BitVec.ofNat 16 (0x5000 + n * 256)] ∧
      (AsmLine.rdbuf n).assemble = some [BitVec.ofNat 16 (0x6000 + n * 256)]) ∧
    (16 ≤ n → (AsmLine.startR n).assemble = none ∧ (AsmLine.read n).assemble = none ∧ (AsmLine.rdbuf n).assemble = none)) ∧
  (∀ b : Nat, (b < 256 → (AsmLine.push b).assemble = some [BitVec.ofNat 16 (0x4000 + b)]) ∧
    (256 ≤ b → (AsmLine.push b).assemble = none)) ∧
  (∀ text comment : List Char, assembleText (text ++ ';' :: comment) = assembleText text)

/-- 30_encoding.md R78: the words of the two pseudo-instructions. -/
def Obligations.PseudoInstructionWords : Prop :=
  ∀ bytes : List Nat, (∀ b ∈ bytes, b < 256) →
    (bytes.length = 9 → (AsmLine.frameM bytes).assemble =
      some (0x2000#16 :: bytes.map (fun b => BitVec.ofNat 16 (0x4000 + b)))) ∧
    (1 ≤ bytes.length → bytes.length ≤ 9 → (AsmLine.frameR bytes).assemble =
      some (BitVec.ofNat 16 (0x3000 + bytes.length * 256) :: bytes.map (fun b => BitVec.ofNat 16 (0x4000 + b))))

/-! ### Control commands -/

/-- 40_control.md R101: NOP is 0x0000 exactly, any other word with `op` = 0 is ILLEGAL, and NOP changes nothing. -/
def Obligations.NopChangesNothing : Prop :=
  (∀ w : Word, decode w = .legal .nop ↔ w = 0x0000#16) ∧
  (∀ w : Word, opField w = 0#4 → w ≠ 0x0000#16 → ∃ why, decode w = .illegal why) ∧
  (∀ s, exec .nop s = .next s)

/-- 40_control.md R102: CLEAR is 0x1000 exactly, gives every element its reset value as an edge with `rst` = 1 does, and is the
only command that clears `err_code`. -/
def Obligations.ClearIsSoftReset : Prop :=
  (∀ w : Word, decode w = .legal .clear ↔ w = 0x1000#16) ∧
  (∀ s, ∃ t, exec .clear s = .next t ∧ t.AtResetValues ∧ t.inputs = s.inputs ∧ t.awaitingReset = s.awaitingReset ∧
    t.powerUps = s.powerUps ∧ ∀ v w, clockEdge ⟨true, v, w⟩ s = .next { t with awaitingReset := false }) ∧
  (∀ i s t, exec i s = .next t → s.errCode ≠ 0#3 → t.errCode = 0#3 → i = .clear)

/-- 40_control.md R103: START.M is 0x2000 exactly and, in every phase, begins a measurement frame; the buffer, the results and
`err_code` stay. -/
def Obligations.StartMBeginsMeasurementFrame : Prop :=
  (∀ w : Word, decode w = .legal .startM ↔ w = 0x2000#16) ∧
  (∀ s, exec .startM s = .next
    { s with kind := .meas, len := 9#4, idx := 0#4, sum := 0x00#8, phase := .collect, resValid := false })

/-- 40_control.md R104: START.R n is 0x3000 | (n << 8) exactly; it begins a raw frame of n bytes for n in 1..9, and else records BAD_LEN
with no other change. A raw frame of one byte is valid only if that byte is 0x00. -/
def Obligations.StartRBeginsRawFrame : Prop :=
  (∀ (s : State) (d : Byte), ∃ t u, exec (.startR 1#4) s = .next t ∧ exec (.push d) t = .next u ∧ u.phase = .done ∧
    u.ok = decide (d = 0x00#8)) ∧
  ∀ n : Nibble, (∀ w : Word, decode w = .legal (.startR n) ↔ w = 0x3000#16 ||| (n.setWidth 16 <<< 8)) ∧ ∀ s,
    (1 ≤ n.toNat ∧ n.toNat ≤ 9 → exec (.startR n) s = .next
      { s with kind := .raw, len := n, idx := 0#4, sum := 0x00#8, phase := .collect, resValid := false }) ∧
    (n.toNat = 0 ∨ 10 ≤ n.toNat → exec (.startR n) s = .next
      { s with errCode := if s.errCode = 0#3 then 3#3 else s.errCode })

/-! ### PUSH and completion -/

/-- 41_frame.md R120: PUSH outside COLLECT records PUSH_IDLE and changes nothing else; in COLLECT it stores its byte at `buf[idx]` and
nowhere else, sums a non-final byte, and completes the frame on the final one, with the verdict of R124. -/
def Obligations.PushAppendsByte : Prop :=
  ∀ d : Byte, (∀ w : Word, decode w = .legal (.push d) ↔ w = 0x4000#16 ||| d.setWidth 16) ∧ ∀ s : State,
    (s.phase ≠ .collect → exec (.push d) s = .next { s with errCode := if s.errCode = 0#3 then 2#3 else s.errCode }) ∧
    (s.phase = .collect → s.idx.toNat ≤ 8 → Memory.wf s.buf = true →
      ∃ t, exec (.push d) s = .next t ∧
        (∀ a, Memory.read t.buf a = if a = s.idx.toNat then d else Memory.read s.buf a) ∧
        (s.idx.toNat + 1 < s.len.toNat → t = { s with buf := t.buf, sum := s.sum + d, idx := s.idx + 1#4 }) ∧
        (¬ s.idx.toNat + 1 < s.len.toNat →
          t.idx = s.len ∧ t.ckCalc = s.sum ∧ t.ckRecv = d ∧ t.ckOk = decide (s.sum = d) ∧ t.resKind = s.kind ∧
          t.resValid = true ∧ t.phase = .done ∧ t.kind = s.kind ∧ t.len = s.len ∧ t.sum = s.sum ∧
          t.errCode = s.errCode ∧ t.rdata = s.rdata ∧ t.inputs = s.inputs ∧ t.awaitingReset = s.awaitingReset ∧
          t.powerUps = s.powerUps))

/-- The model's choice (log 5; 20_memory.md R50: there are addresses 0 to 8 only): a PUSH in COLLECT whose `idx` is 9 or more faults. -/
def Obligations.PushOutsideBufferFaults : Prop :=
  ∀ (d : Byte) (s : State), s.phase = .collect → 9 ≤ s.idx.toNat → exec (.push d) s = .fault .bufferAddress

/-- 41_frame.md R127: a measurement frame whose checksum matches writes the three fields, the classified status and `ok`, for every
classification; every other element as R120, R124 and R128 say or unchanged. -/
def Obligations.PassingMeasFrameWritesFields : Prop :=
  ∀ (d : Byte) (s : State), s.phase = .collect → s.idx.toNat ≤ 8 → s.finalByte → s.kind = .meas →
    Memory.wf s.buf = true → s.sum = d →
    ∃ t, exec (.push d) s = .next t ∧ (∀ a, Memory.read t.buf a = s.pushedBytes d a) ∧
      t = { s with
        buf := t.buf, idx := s.len, phase := .done, ckCalc := s.sum, ckRecv := d, ckOk := true, resKind := .meas
        resValid := true
        hdrOk := decide (s.pushedBytes d 0 = 0x59#8 ∧ s.pushedBytes d 1 = 0x59#8)
        dist := s.pushedBytes d 3 ++ s.pushedBytes d 2
        strength := s.pushedBytes d 5 ++ s.pushedBytes d 4
        tempRaw := s.pushedBytes d 7 ++ s.pushedBytes d 6
        status :=
          if s.pushedBytes d 3 ++ s.pushedBytes d 2 = 0xFFFF#16 then 10#4
          else if s.pushedBytes d 5 ++ s.pushedBytes d 4 = 0xFFFF#16 then 11#4
          else if s.pushedBytes d 3 ++ s.pushedBytes d 2 = 0xFFFC#16 then 12#4
          else 0#4
        ok := decide (t.status = 0#4) }

/-- 41_frame.md R126: a measurement frame whose checksum does not match gets status Checksum and `ok` = 0, and the field registers
keep their values; every other element as R120, R124 and R128 say or unchanged. -/
def Obligations.FailingMeasFrameKeepsFields : Prop :=
  ∀ (d : Byte) (s : State), s.phase = .collect → s.idx.toNat ≤ 8 → s.finalByte → s.kind = .meas →
    Memory.wf s.buf = true → s.sum ≠ d →
    ∃ t, exec (.push d) s = .next t ∧ (∀ a, Memory.read t.buf a = s.pushedBytes d a) ∧
      t = { s with
        buf := t.buf, idx := s.len, phase := .done, ckCalc := s.sum, ckRecv := d, ckOk := false, resKind := .meas
        resValid := true, status := 3#4, ok := false
        hdrOk := decide (s.pushedBytes d 0 = 0x59#8 ∧ s.pushedBytes d 1 = 0x59#8) }

/-- 41_frame.md R130, R131: a raw frame gets Ready and `ok` = 1 on a match, Checksum and `ok` = 0 on a mismatch, `hdr_ok` = 0 in both
cases, and the fields stay. -/
def Obligations.RawFrameOutcome : Prop :=
  ∀ (d : Byte) (s : State), s.phase = .collect → s.idx.toNat ≤ 8 → s.finalByte → s.kind = .raw → Memory.wf s.buf = true →
    ∃ t, exec (.push d) s = .next t ∧ (∀ a, Memory.read t.buf a = s.pushedBytes d a) ∧
      t = { s with
        buf := t.buf, idx := s.len, phase := .done, ckCalc := s.sum, ckRecv := d, ckOk := decide (s.sum = d)
        resKind := .raw, resValid := true, hdrOk := false
        status := if s.sum = d then 0#4 else 3#4
        ok := decide (s.sum = d) }

/-- 41_frame.md R128: at a completion of a measurement frame `hdr_ok` says whether the first two bytes are 0x59, and the two bytes
decide nothing else: with any other two in their place the whole next state is the same but for `hdr_ok` and those two bytes of the
buffer. Status Header is never written. -/
def Obligations.HeaderBytesDecideNothing : Prop :=
  ∀ (d x y : Byte) (s : State), s.phase = .collect → 2 ≤ s.idx.toNat → s.idx.toNat ≤ 8 → s.finalByte → s.kind = .meas →
    Memory.wf s.buf = true →
    ∃ t t', exec (.push d) s = .next t ∧
      exec (.push d) { s with buf := Memory.write (Memory.write s.buf 0 x) 1 y } = .next t' ∧
      t.hdrOk = decide (Memory.read s.buf 0 = 0x59#8 ∧ Memory.read s.buf 1 = 0x59#8) ∧
      t'.hdrOk = decide (x = 0x59#8 ∧ y = 0x59#8) ∧
      t' = { t with buf := t'.buf, hdrOk := t'.hdrOk } ∧
      (∀ a, Memory.read t'.buf a = if a = 0 then x else if a = 1 then y else Memory.read t.buf a) ∧ t.status ≠ 2#4

/-- 41_frame.md R121: the checksum is the sum of every byte but the last, mod 256 (0 of one byte), a frame is valid when its last byte
is that sum, and the running sum of the block is the frame's checksum at its completion. -/
def Obligations.CompletionComparesFrameChecksum : Prop :=
  (∀ (b : Nat → Byte) (n : Nat), 1 ≤ n →
    (checksum b n).toNat = (∑ k ∈ Finset.range (n - 1), (b k).toNat) % 256 ∧
    (checksumValid b n = true ↔ checksum b n = b (n - 1))) ∧
  (∀ b : Nat → Byte, checksum b 1 = 0x00#8) ∧
  (∀ (d : Byte) (s : State), s.Inv → s.awaitingReset = false → s.phase = .collect → s.finalByte →
    ∃ t, exec (.push d) s = .next t ∧ t.sum = checksum t.bytes t.len.toNat ∧ t.ckCalc = checksum t.bytes t.len.toNat ∧
      t.ckRecv = t.bytes (t.len.toNat - 1) ∧ t.ckOk = checksumValid t.bytes t.len.toNat)

/-- 41_frame.md R125: the classification in its fixed order, in the patterns of R132, with its codes. -/
def Obligations.ClassifierPrecedence : Prop :=
  ∀ D S : Word,
    (classify D S).code =
      (if D.toInt = -1 then 10#4 else if S.toInt = -1 then 11#4 else if D.toInt = -4 then 12#4 else 0#4) ∧
    (classify D S).code =
      (if D = 0xFFFF#16 then 10#4 else if S = 0xFFFF#16 then 11#4 else if D = 0xFFFC#16 then 12#4 else 0#4)

/-- 41_frame.md R123: the temperature is the floor of the signed raw value by 8, less 256, with no wrap; it agrees with the logical
shift exactly where bit 15 is clear, and where it is set the two have the ranges the rule states. -/
def Obligations.CelsiusIsArithmeticShift : Prop :=
  celsius 0x0898#16 = 19#16 ∧
  ∀ T : Word, (celsius T).toInt = T.toInt / 8 - 256 ∧ -4352 ≤ (celsius T).toInt ∧ (celsius T).toInt ≤ 3839 ∧
    (T.getLsbD 15 = false → celsius T = (T >>> 3) - 256#16) ∧
    (T.getLsbD 15 = true → (celsius T).toInt ≤ -257 ∧ 3840 ≤ ((T >>> 3) - 256#16).toNat ∧ ((T >>> 3) - 256#16).toNat ≤ 7935)

/-! ### Read-out commands -/

/-- 42_readout.md R160: READ copies the selected value to `rdata` and changes nothing else; a selector of 8 or more gives 0x0000 and
BAD_SEL. -/
def Obligations.ReadCopiesSelectedValue : Prop :=
  (∀ (r : Nibble) (w : Word), decode w = .legal (.read r) ↔ w = 0x5000#16 ||| (r.setWidth 16 <<< 8)) ∧
  ∀ s : State,
    exec (.read 0#4) s = .next { s with rdata := s.statusWord } ∧
    exec (.read 1#4) s = .next { s with rdata := s.dist } ∧
    exec (.read 2#4) s = .next { s with rdata := s.strength } ∧
    exec (.read 3#4) s = .next { s with rdata := s.tempRaw } ∧
    exec (.read 4#4) s = .next { s with rdata := celsius s.tempRaw } ∧
    exec (.read 5#4) s = .next { s with rdata := s.ckCalc ++ s.ckRecv } ∧
    exec (.read 6#4) s = .next { s with rdata := s.ctrlWord } ∧
    exec (.read 7#4) s = .next { s with rdata := s.sum.setWidth 16 } ∧
    (∀ r : Nibble, 8 ≤ r.toNat → exec (.read r) s = .next
      { s with rdata := 0x0000#16, errCode := if s.errCode = 0#3 then 4#3 else s.errCode })

/-- 42_readout.md R161: what READ STATUS returns, bit by bit. -/
def Obligations.StatusWordLayout : Prop :=
  (∀ s : State, ∃ w, exec (.read 0#4) s = .next { s with rdata := w } ∧
    w.extractLsb' 0 4 = s.status ∧ w.getLsbD 4 = s.ok ∧ w.getLsbD 5 = s.ckOk ∧ w.getLsbD 6 = s.hdrOk ∧
    w.getLsbD 7 = s.resValid ∧ (w.getLsbD 8 = true ↔ s.resKind = .raw) ∧
    (s.phase = .idle → w.extractLsb' 9 2 = 0#2) ∧ (s.phase = .collect → w.extractLsb' 9 2 = 1#2) ∧
    (s.phase = .done → w.extractLsb' 9 2 = 2#2) ∧
    w.getLsbD 11 = false ∧ w.extractLsb' 12 3 = s.errCode ∧ w.getLsbD 15 = false) ∧
  (∀ s : State, s.AtResetValues → exec (.read 0#4) s = .next { s with rdata := 0x0000#16 })

/-- 42_readout.md R163: what READ CTRL returns, bit by bit; 0x0000 after reset, 0x0090 after START.M, 0x0099 after the final byte of a
measurement frame. -/
def Obligations.CtrlWordLayout : Prop :=
  (∀ s : State, ∃ w, exec (.read 6#4) s = .next { s with rdata := w } ∧
    w.extractLsb' 0 4 = s.idx ∧ w.extractLsb' 4 4 = s.len ∧ (w.getLsbD 8 = true ↔ s.kind = .raw) ∧ w.extractLsb' 9 7 = 0#7) ∧
  (∀ s : State, s.AtResetValues → exec (.read 6#4) s = .next { s with rdata := 0x0000#16 }) ∧
  (∀ s t : State, exec .startM s = .next t → exec (.read 6#4) t = .next { t with rdata := 0x0090#16 }) ∧
  (∀ (d : Byte) (s : State), s.Inv → s.awaitingReset = false → s.phase = .collect → s.kind = .meas → s.finalByte →
    ∃ t, exec (.push d) s = .next t ∧ exec (.read 6#4) t = .next { t with rdata := 0x0099#16 })

/-- 42_readout.md R164: READ TEMPC is the conversion of the current `temp_raw`. -/
def Obligations.TempcFollowsTempRaw : Prop :=
  (∀ s : State, exec (.read 4#4) s = .next { s with rdata := celsius s.tempRaw }) ∧
  celsius 0x0000#16 = 0xFF00#16 ∧ celsius 0x0898#16 = 0x0013#16 ∧
  (∀ s : State, s.AtResetValues → exec (.read 4#4) s = .next { s with rdata := 0xFF00#16 })

/-- 42_readout.md R162: RDBUF copies one buffer byte, zero-extended, to `rdata` and changes nothing else; an address of 9 or more gives
0x0000 and BAD_SEL. -/
def Obligations.RdbufCopiesBufferByte : Prop :=
  ∀ i : Nibble, (∀ w : Word, decode w = .legal (.rdbuf i) ↔ w = 0x6000#16 ||| (i.setWidth 16 <<< 8)) ∧ ∀ s : State,
    (i.toNat ≤ 8 → exec (.rdbuf i) s = .next { s with rdata := (Memory.read s.buf i.toNat).setWidth 16 }) ∧
    (9 ≤ i.toNat → exec (.rdbuf i) s = .next
      { s with rdata := 0x0000#16, errCode := if s.errCode = 0#3 then 4#3 else s.errCode })

/-- Reading a selector or a buffer byte again, with no other command between, changes nothing more (20_memory.md R56). -/
def Obligations.ReadsAreIdempotent : Prop :=
  ∀ (i : Instr) (s t : State), ((∃ r, i = .read r) ∨ ∃ a, i = .rdbuf a) → exec i s = .next t → exec i t = .next t

/-- 60_exceptions.md R193: two states of which every READ selector and every RDBUF address returns the same agree in every element
of the block but `rdata`. -/
def Obligations.HostObservesWholeState : Prop :=
  ∀ s t : State, Memory.wf s.buf = true → Memory.wf t.buf = true →
    (∀ r : Nibble, r.toNat ≤ 7 → ∃ w, exec (.read r) s = .next { s with rdata := w } ∧
      exec (.read r) t = .next { t with rdata := w }) →
    (∀ i : Nibble, i.toNat ≤ 8 → ∃ w, exec (.rdbuf i) s = .next { s with rdata := w } ∧
      exec (.rdbuf i) t = .next { t with rdata := w }) →
    t = { s with rdata := t.rdata, inputs := t.inputs, awaitingReset := t.awaitingReset, powerUps := t.powerUps }

/-- After a measurement frame whose checksum passed, RDBUF 2 to 7 return the bytes of the three field registers
(20_memory.md R52, R54). -/
def Obligations.BufferShowsFieldBytes : Prop :=
  ∀ s : State, s.Inv → s.ResultsSound → s.awaitingReset = false → s.fieldsTrusted = true →
    exec (.rdbuf 2#4) s = .next { s with rdata := (s.dist.extractLsb' 0 8).setWidth 16 } ∧
    exec (.rdbuf 3#4) s = .next { s with rdata := (s.dist.extractLsb' 8 8).setWidth 16 } ∧
    exec (.rdbuf 4#4) s = .next { s with rdata := (s.strength.extractLsb' 0 8).setWidth 16 } ∧
    exec (.rdbuf 5#4) s = .next { s with rdata := (s.strength.extractLsb' 8 8).setWidth 16 } ∧
    exec (.rdbuf 6#4) s = .next { s with rdata := (s.tempRaw.extractLsb' 0 8).setWidth 16 } ∧
    exec (.rdbuf 7#4) s = .next { s with rdata := (s.tempRaw.extractLsb' 8 8).setWidth 16 }

/-! ### Errors and outputs -/

/-- 10_state.md R37: `err_code` after a command is the first error recorded, by the table of 60_exceptions.md R180; an illegal word
records ILLEGAL; CLEAR and reset write 0. -/
def Obligations.FirstErrorIsKept : Prop :=
  (∀ i s t, exec i s = .next t → i ≠ .clear → t.errCode = if s.errCode = 0#3 then errorOf i s else s.errCode) ∧
  (∀ s t, exec .clear s = .next t → t.errCode = 0#3) ∧
  (∀ s t p, step s = .next t → s.nextInput = .edge p → p.rst = true → t.errCode = 0#3) ∧
  (∀ w s t why, decode w = .illegal why → runWord w s = .next t →
    t.errCode = if s.errCode = 0#3 then 1#3 else s.errCode)

/-- 60_exceptions.md R181: a command that records an error keeps the first one and changes nothing but `err_code`, and a
bad-selector read `rdata`, which becomes 0x0000; an illegal word likewise. -/
def Obligations.ErrorsChangeNothingElse : Prop :=
  (∀ i s, errorOf i s ≠ 0#3 →
    exec i s = .next { s with
      errCode := if s.errCode = 0#3 then errorOf i s else s.errCode
      rdata := if errorOf i s = 4#3 then 0x0000#16 else s.rdata }) ∧
  ∀ w s why, decode w = .illegal why →
    runWord w s = .next { s with errCode := if s.errCode = 0#3 then 1#3 else s.errCode }

/-- An error, once recorded, stays until an edge with `rst` = 1, CLEAR or a loss of power, whatever the next input is
(60_exceptions.md R185). -/
def Obligations.ErrorStaysUntilClearOrReset : Prop :=
  ∀ s t, step s = .next t → s.errCode ≠ 0#3 → t.errCode ≠ s.errCode →
    s.nextInput = .powerCycle ∨ ∃ p, s.nextInput = .edge p ∧ (p.rst = true ∨ (p.cmdValid = true ∧ p.cmd = 0x1000#16))

/-- No flag and no recorded error decides what a command does: with any other flags and any other `err_code`, every command goes on to
the same state but for the flags and `err_code` themselves; READ STATUS, which returns them, apart (10_state.md R41; 60_exceptions.md R185). -/
def Obligations.FlagsDecideNothing : Prop :=
  ∀ (i : Instr) (s t : State) (ok ckOk hdrOk resValid : Bool) (e : BitVec 3), i ≠ .read 0#4 → exec i s = .next t →
    ∃ t', exec i { s with ok := ok, ckOk := ckOk, hdrOk := hdrOk, resValid := resValid, errCode := e } = .next t' ∧
      t' = { t with ok := t'.ok, ckOk := t'.ckOk, hdrOk := t'.hdrOk, resValid := t'.resValid, errCode := t'.errCode }

/-- 10_state.md R39: the two level outputs beside `rdata`. -/
def Obligations.OutputsFollowState : Prop :=
  ∀ s : State, s.outputs.rdata = s.rdata ∧ s.outputs.resValidO = s.resValid ∧ (s.outputs.errO = true ↔ s.errCode ≠ 0#3)

/-- When the outputs rise and fall (60_exceptions.md R186): `res_valid_o` rises only where the final PUSH of a frame is presented and
falls only at an accepted START, CLEAR or reset, `err_o` rises only where an error is recorded and falls only at CLEAR or reset; a
loss of power apart. -/
def Obligations.OutputsRiseAndFall : Prop :=
  ∀ s t, step s = .next t → s.nextInput ≠ .powerCycle → ∃ p, s.nextInput = .edge p ∧
    (s.outputs.resValidO = false → t.outputs.resValidO = true →
      p.rst = false ∧ p.cmdValid = true ∧ ∃ d, decode p.cmd = .legal (.push d) ∧ s.phase = .collect ∧ s.finalByte) ∧
    (s.outputs.resValidO = true → t.outputs.resValidO = false →
      p.rst = true ∨ (p.rst = false ∧ p.cmdValid = true ∧
        (decode p.cmd = .legal .startM ∨ decode p.cmd = .legal .clear ∨
          ∃ n, decode p.cmd = .legal (.startR n) ∧ errorOf (.startR n) s = 0#3))) ∧
    (s.outputs.errO = false → t.outputs.errO = true →
      p.rst = false ∧ p.cmdValid = true ∧
        ((∃ why, decode p.cmd = .illegal why) ∨ ∃ i, decode p.cmd = .legal i ∧ errorOf i s ≠ 0#3)) ∧
    (s.outputs.errO = true → t.outputs.errO = false →
      p.rst = true ∨ (p.rst = false ∧ p.cmdValid = true ∧ decode p.cmd = .legal .clear))

/-! ### Who writes what -/

/-- 10_state.md R28: the buffer has nine bytes; an accepted PUSH writes `buf[idx]`, CLEAR zeroes all nine, and no other command
writes it. -/
def Obligations.BufferWriters : Prop :=
  ∀ (i : Instr) (s t : State), Memory.wf s.buf = true → exec i s = .next t →
    (∀ a, 9 ≤ a → Memory.read t.buf a = 0x00#8) ∧
    ∀ a, Memory.read t.buf a =
      match i with
      | .clear => 0x00#8
      | .push d => if s.phase = .collect ∧ a = s.idx.toNat then d else Memory.read s.buf a
      | _ => Memory.read s.buf a

/-- 10_state.md R36: only a measurement frame whose checksum matched writes the field registers, with its own fields; CLEAR zeroes them;
in every other case they stay. -/
def Obligations.FieldRegisterWriters : Prop :=
  ∀ (i : Instr) (s t : State), Memory.wf s.buf = true → exec i s = .next t →
    (i = .clear → t.dist = 0#16 ∧ t.strength = 0#16 ∧ t.tempRaw = 0#16) ∧
    (∀ d, i = .push d → s.phase = .collect → s.finalByte → s.kind = .meas → s.sum = d →
      t.dist = s.pushedBytes d 3 ++ s.pushedBytes d 2 ∧ t.strength = s.pushedBytes d 5 ++ s.pushedBytes d 4 ∧
      t.tempRaw = s.pushedBytes d 7 ++ s.pushedBytes d 6) ∧
    (i ≠ .clear → ¬ (∃ d, i = .push d ∧ s.phase = .collect ∧ s.finalByte ∧ s.kind = .meas ∧ s.sum = d) →
      t.dist = s.dist ∧ t.strength = s.strength ∧ t.tempRaw = s.tempRaw)

/-- The result registers change only at a completion and by CLEAR; START clears `res_valid` and keeps the rest
(10_state.md R29 to R36). -/
def Obligations.ResultRegisterWriters : Prop :=
  ∀ (i : Instr) (s t : State), exec i s = .next t → i ≠ .clear →
    ¬ (∃ d, i = .push d ∧ s.phase = .collect ∧ s.finalByte) →
    t.status = s.status ∧ t.ok = s.ok ∧ t.ckOk = s.ckOk ∧ t.hdrOk = s.hdrOk ∧ t.resKind = s.resKind ∧
    t.ckCalc = s.ckCalc ∧ t.ckRecv = s.ckRecv ∧ t.dist = s.dist ∧ t.strength = s.strength ∧ t.tempRaw = s.tempRaw ∧
    (t.resValid = s.resValid ∨ (t.resValid = false ∧ (i = .startM ∨ ∃ n, i = .startR n)))

/-- 10_state.md R38: `rdata` drives its output, only READ, RDBUF and CLEAR write it (reset apart), and every other command word,
illegal ones too, leaves it. -/
def Obligations.RdataWriters : Prop :=
  (∀ s : State, s.outputs.rdata = s.rdata) ∧
  (∀ (w : Word) (s t : State), runWord w s = .next t → (∀ r, decode w ≠ .legal (.read r)) →
    (∀ a, decode w ≠ .legal (.rdbuf a)) → decode w ≠ .legal .clear → t.rdata = s.rdata) ∧
  (∀ s t : State, exec .clear s = .next t → t.rdata = 0x0000#16) ∧
  (∀ s t p, step s = .next t → s.nextInput = .edge p → p.rst = true → t.rdata = 0x0000#16)

/-- Who moves the parser: `phase`, `kind`, `len`, `idx` and `sum` after a command other than an accepted START, an accepted PUSH and CLEAR
are as before (10_state.md R23 to R27), and an accepted PUSH leaves `kind` and `len`. -/
def Obligations.ParserStateWriters : Prop :=
  ∀ (i : Instr) (s t : State), exec i s = .next t → i ≠ .clear → i ≠ .startM → (∀ n, i = .startR n → errorOf i s ≠ 0#3) →
    t.kind = s.kind ∧ t.len = s.len ∧
    ((∀ d, i = .push d → s.phase ≠ .collect) → t.phase = s.phase ∧ t.idx = s.idx ∧ t.sum = s.sum)

/-! ### Invariants over every step -/

/-- 10_state.md R40: the conditions hold right after a reset whatever the outside will present, every step keeps them, and IDLE is
reached only by a reset or a presented CLEAR (a loss of power apart). -/
def Obligations.EveryStepKeepsInvariant : Prop :=
  (∀ inputs : List HostInput, State.Inv { State.reset with inputs := inputs }) ∧
  (∀ s t : State, s.Inv → step s = .next t → t.Inv) ∧
  (∀ s t : State, step s = .next t → s.phase ≠ .idle → t.phase = .idle →
    s.nextInput = .powerCycle ∨
      ∃ p, s.nextInput = .edge p ∧ (p.rst = true ∨ (p.cmdValid = true ∧ decode p.cmd = .legal .clear)))

/-- The block computes the source's `decode(frame)`: in every state after a step, once a frame has completed, the latched results are
those of the pure decoder on the bytes in the buffer (41_frame.md R121 to R133; 10_state.md R30 to R36). -/
def Obligations.EveryStepKeepsResultsSound : Prop :=
  ∀ s t : State, s.Inv → s.ResultsSound → step s = .next t → t.ResultsSound

/-- A step stops only where a command word is presented before the first reset (60_exceptions.md R183; 70_reset_and_hazards.md R211). -/
def Obligations.StepStopsOnlyBeforeReset : Prop := ∀ s : State, s.Inv → s.resetFirst → ∃ t, step s = .next t

/-- No run stops after a reset, for any words, legal or not, in any order, as long as power is not lost
(60_exceptions.md R183). -/
def Obligations.NoRunStopsAfterReset : Prop :=
  ∀ (n : Nat) (s : State), s.Inv → s.awaitingReset = false → .powerCycle ∉ s.inputs → s.safeFor n
end

