-- ==== Sys2Proof/Laws/Decode.lean ====
section
/-! SUPPORT. The opcode map's rows do not overlap, and the fields of an encoded command. -/

namespace Sys2Proof

/-- No word is accepted by two rows: two rows always differ in a bit that both fix (30_encoding.md R72). -/
theorem opTable_disjoint :
    opTable.Pairwise (fun r q => r.pattern &&& q.mask ≠ q.pattern &&& r.mask) := by decide

/-- The bit index law the field lemmas rest on. -/
theorem aField_getLsbD (w : Word) (k : Nat) (h : k < 4) : (aField w).getLsbD k = w.getLsbD (8 + k) := by
  simp [aField, h]

theorem opField_getLsbD (w : Word) (k : Nat) (h : k < 4) : (opField w).getLsbD k = w.getLsbD (12 + k) := by
  simp [opField, h]

theorem dField_getLsbD (w : Word) (k : Nat) (h : k < 8) : (dField w).getLsbD k = w.getLsbD k := by
  simp [dField, h]

/-- A word is its three fields (30_encoding.md R70). -/
theorem word_eq_fields (w : Word) : w = opField w ++ aField w ++ dField w := by
  unfold opField aField dField
  refine BitVec.eq_of_getLsbD_eq fun k hk => ?_
  simp only [BitVec.getLsbD_append, BitVec.getLsbD_extractLsb']
  by_cases h1 : k < 8
  · simp [h1]
  · by_cases h2 : k - 8 < 4
    · simp [h1, h2, show 8 + (k - 8) = k by omega]
    · have h3 : k - 8 - 4 < 4 := by omega
      simp [h1, h2, h3, show 12 + (k - 8 - 4) = k by omega]

end Sys2Proof
end

