-- ==== Sys2Proof/Laws/Memory.lean ====
section
/-! SUPPORT. The frame buffer: reading after a write, the canonical form is kept by every operation, and buffers that read the
same are the same data. -/

namespace Sys2Proof.Machine

theorem Memory.read_nil (a : Nat) : Memory.read [] a = 0x00#8 := rfl

theorem Memory.read_of_wfFrom {lo : Nat} {m : Memory} (h : Memory.wfFrom lo m = true) {a : Nat} (ha : a < lo) :
    Memory.read m a = 0x00#8 := by
  induction m generalizing lo with
  | nil => rfl
  | cons c m ih =>
    obtain ⟨x, b⟩ := c
    simp only [Memory.wfFrom, Bool.and_eq_true, decide_eq_true_eq] at h
    have hx : x ≠ a := by omega
    simpa [Memory.read, hx] using ih h.2 (by omega)

/-- A write then a read of the same address (the law of the canonical form's addresses is what makes it hold). -/
theorem Memory.read_write_same_from {lo : Nat} {m : Memory} (h : Memory.wfFrom lo m = true) (a : Nat) (v : Byte) :
    Memory.read (Memory.write m a v) a = v := by
  induction m generalizing lo with
  | nil =>
    by_cases hv : v = Memory.unlisted
    · simp [Memory.write, Memory.read, hv]
    · simp [Memory.write, Memory.read, hv]
  | cons c m ih =>
    obtain ⟨x, b⟩ := c
    simp only [Memory.wfFrom, Bool.and_eq_true, decide_eq_true_eq] at h
    have rest (hax : a < x + 1) : Memory.read m a = Memory.unlisted := Memory.read_of_wfFrom h.2 hax
    unfold Memory.write
    by_cases hlt : a < x
    · have hne : x ≠ a := by omega
      by_cases hv : v = Memory.unlisted
      · simp [hlt, hv, Memory.read, hne, rest (by omega)]
      · simp [hlt, hv, Memory.read]
    · by_cases heq : a = x
      · by_cases hv : v = Memory.unlisted
        · simp [heq, hv]; simpa [heq] using rest (by omega)
        · simp [heq, hv, Memory.read]
      · have hne : x ≠ a := fun e => heq e.symm
        simpa [hlt, heq, Memory.read, hne] using ih h.2

theorem Memory.read_write_other (m : Memory) {a x : Nat} (v : Byte) (hne : x ≠ a) :
    Memory.read (Memory.write m a v) x = Memory.read m x := by
  induction m with
  | nil =>
    by_cases hv : v = Memory.unlisted
    · simp [Memory.write, hv]
    · simp [Memory.write, Memory.read, hv, hne.symm]
  | cons c m ih =>
    obtain ⟨y, b⟩ := c
    unfold Memory.write
    by_cases hlt : a < y
    · by_cases hv : v = Memory.unlisted
      · simp [hlt, hv]
      · simp [hlt, hv, Memory.read, hne.symm]
    · by_cases heq : a = y
      · subst heq
        by_cases hv : v = Memory.unlisted
        · simp [hv, Memory.read, hne.symm]
        · simp [hv, Memory.read, hne.symm]
      · simp [hlt, heq, Memory.read, ih]

theorem Memory.wfFrom_mono {lo lo' : Nat} {m : Memory} (h : Memory.wfFrom lo m = true) (hle : lo' ≤ lo) :
    Memory.wfFrom lo' m = true := by
  cases m with
  | nil => rfl
  | cons c m =>
    simp only [Memory.wfFrom, Bool.and_eq_true, decide_eq_true_eq] at h ⊢
    exact ⟨⟨⟨by omega, h.1.1.2⟩, h.1.2⟩, h.2⟩

/-- A write at an address of the buffer keeps the canonical form. -/
theorem Memory.write_wfFrom {lo : Nat} {m : Memory} (h : Memory.wfFrom lo m = true) {a : Nat} (v : Byte) (hlo : lo ≤ a)
    (ha : a < Config.bufBytes) : Memory.wfFrom lo (Memory.write m a v) = true := by
  induction m generalizing lo with
  | nil =>
    by_cases hv : v = Memory.unlisted
    · simp [Memory.write, Memory.wfFrom, hv]
    · simp [Memory.write, Memory.wfFrom, hv, hlo, ha]
  | cons c m ih =>
    obtain ⟨x, b⟩ := c
    have h' := h
    simp only [Memory.wfFrom, Bool.and_eq_true, decide_eq_true_eq] at h'
    obtain ⟨⟨⟨hx, hx'⟩, hb⟩, ht⟩ := h'
    unfold Memory.write
    by_cases hlt : a < x
    · by_cases hv : v = Memory.unlisted
      · simp [hlt, hv, h]
      · have : a + 1 ≤ x := hlt
        simp [hlt, hv, Memory.wfFrom, hlo, ha, this, hx', ht, bne_iff_ne.mp hb]
    · by_cases heq : a = x
      · by_cases hv : v = Memory.unlisted
        · simpa [hlt, heq, hv] using Memory.wfFrom_mono ht (by omega)
        · simp [heq, hv, Memory.wfFrom, hx, hx', ht]
      · simp [hlt, heq, Memory.wfFrom, hx, hx', bne_iff_ne.mp hb, ih ht (by omega)]

/-- A buffer in its canonical form holds nothing outside its nine addresses. -/
theorem Memory.read_outside {lo : Nat} {m : Memory} (h : Memory.wfFrom lo m = true) {a : Nat} (ha : 9 ≤ a) :
    Memory.read m a = 0x00#8 := by
  induction m generalizing lo with
  | nil => rfl
  | cons c m ih =>
    obtain ⟨x, b⟩ := c
    simp only [Memory.wfFrom, Bool.and_eq_true, decide_eq_true_eq] at h
    have hx : x ≠ a := by have : x < 9 := h.1.1.2; omega
    simpa [Memory.read, hx] using ih h.2

theorem Memory.read_write_same {m : Memory} (h : Memory.wf m = true) (a : Nat) (v : Byte) :
    Memory.read (Memory.write m a v) a = v := Memory.read_write_same_from h a v

theorem Memory.write_wf {m : Memory} (h : Memory.wf m = true) {a : Nat} (v : Byte) (ha : a < Config.bufBytes) :
    Memory.wf (Memory.write m a v) = true := Memory.write_wfFrom h v (Nat.zero_le _) ha

theorem Memory.ofBytes_wf (f : Nat → Byte) {n : Nat} (hn : n ≤ Config.bufBytes) : Memory.wf (Memory.ofBytes f n) = true := by
  induction n with
  | zero => rfl
  | succ n ih => exact Memory.write_wf (ih (by omega)) _ (by omega)

/-- What one write does to every read of a buffer in its canonical form. -/
theorem Memory.read_write {m : Memory} (h : Memory.wf m = true) (a x : Nat) (v : Byte) :
    Memory.read (Memory.write m a v) x = if x = a then v else Memory.read m x := by
  split
  · next e => subst e; exact Memory.read_write_same h x v
  · next e => exact Memory.read_write_other m v e

theorem Memory.eq_of_reads_from {lo : Nat} {m m' : Memory} (h : Memory.wfFrom lo m = true) (h' : Memory.wfFrom lo m' = true)
    (hr : ∀ a, Memory.read m a = Memory.read m' a) : m = m' := by
  induction m generalizing lo m' with
  | nil =>
    cases m' with
    | nil => rfl
    | cons c m' =>
      obtain ⟨x, b⟩ := c
      simp only [Memory.wfFrom, Bool.and_eq_true, bne_iff_ne] at h'
      have := hr x
      simp [Memory.read] at this
      exact absurd this.symm h'.1.2
  | cons c m ih =>
    obtain ⟨x, b⟩ := c
    have hw := h
    simp only [Memory.wfFrom, Bool.and_eq_true, bne_iff_ne, decide_eq_true_eq] at hw
    cases m' with
    | nil =>
      have := hr x
      simp [Memory.read] at this
      exact absurd this hw.1.2
    | cons c' m' =>
      obtain ⟨y, b'⟩ := c'
      have hw' := h'
      simp only [Memory.wfFrom, Bool.and_eq_true, bne_iff_ne, decide_eq_true_eq] at hw'
      have hxy : x = y := by
        rcases Nat.lt_trichotomy x y with hlt | heq | hlt
        · have := hr x
          have hne : y ≠ x := by omega
          simp [Memory.read, hne, Memory.read_of_wfFrom hw'.2 (show x < y + 1 by omega)] at this
          exact absurd this hw.1.2
        · exact heq
        · have := hr y
          have hne : x ≠ y := by omega
          simp [Memory.read, hne, Memory.read_of_wfFrom hw.2 (show y < x + 1 by omega)] at this
          exact absurd this.symm hw'.1.2
      subst hxy
      have hb : b = b' := by simpa [Memory.read] using hr x
      subst hb
      have : m = m' := by
        refine ih hw.2 hw'.2 fun a => ?_
        by_cases ha : x = a
        · subst ha
          rw [Memory.read_of_wfFrom hw.2 (by omega), Memory.read_of_wfFrom hw'.2 (by omega)]
        · simpa [Memory.read, ha] using hr a
      rw [this]

/-- The canonical form: buffers whose nine bytes read the same are the same list. -/
theorem Memory.eq_of_reads {m m' : Memory} (h : Memory.wf m = true) (h' : Memory.wf m' = true)
    (hr : ∀ a, Memory.read m a = Memory.read m' a) : m = m' := Memory.eq_of_reads_from h h' hr

end Sys2Proof.Machine
end

