-- ==== Sys2Proof/Laws/State.lean ====
section
/-! SUPPORT. One lemma for each field after each named update of the state, so that no proof unfolds a record update. -/

namespace Sys2Proof.Machine

section recordErr
variable (s : State) (e : HostError)

@[simp] theorem State.recordErr_phase : (s.recordErr e).phase = s.phase := rfl
@[simp] theorem State.recordErr_kind : (s.recordErr e).kind = s.kind := rfl
@[simp] theorem State.recordErr_len : (s.recordErr e).len = s.len := rfl
@[simp] theorem State.recordErr_idx : (s.recordErr e).idx = s.idx := rfl
@[simp] theorem State.recordErr_sum : (s.recordErr e).sum = s.sum := rfl
@[simp] theorem State.recordErr_buf : (s.recordErr e).buf = s.buf := rfl
@[simp] theorem State.recordErr_status : (s.recordErr e).status = s.status := rfl
@[simp] theorem State.recordErr_ok : (s.recordErr e).ok = s.ok := rfl
@[simp] theorem State.recordErr_ckOk : (s.recordErr e).ckOk = s.ckOk := rfl
@[simp] theorem State.recordErr_hdrOk : (s.recordErr e).hdrOk = s.hdrOk := rfl
@[simp] theorem State.recordErr_resValid : (s.recordErr e).resValid = s.resValid := rfl
@[simp] theorem State.recordErr_resKind : (s.recordErr e).resKind = s.resKind := rfl
@[simp] theorem State.recordErr_ckCalc : (s.recordErr e).ckCalc = s.ckCalc := rfl
@[simp] theorem State.recordErr_ckRecv : (s.recordErr e).ckRecv = s.ckRecv := rfl
@[simp] theorem State.recordErr_dist : (s.recordErr e).dist = s.dist := rfl
@[simp] theorem State.recordErr_strength : (s.recordErr e).strength = s.strength := rfl
@[simp] theorem State.recordErr_tempRaw : (s.recordErr e).tempRaw = s.tempRaw := rfl
@[simp] theorem State.recordErr_errCode : (s.recordErr e).errCode = firstError s.errCode e.code := rfl
@[simp] theorem State.recordErr_rdata : (s.recordErr e).rdata = s.rdata := rfl
@[simp] theorem State.recordErr_inputs : (s.recordErr e).inputs = s.inputs := rfl
@[simp] theorem State.recordErr_awaitingReset : (s.recordErr e).awaitingReset = s.awaitingReset := rfl
@[simp] theorem State.recordErr_powerUps : (s.recordErr e).powerUps = s.powerUps := rfl

end recordErr

section setRdata
variable (s : State) (v : Word)

@[simp] theorem State.setRdata_phase : (s.setRdata v).phase = s.phase := rfl
@[simp] theorem State.setRdata_kind : (s.setRdata v).kind = s.kind := rfl
@[simp] theorem State.setRdata_len : (s.setRdata v).len = s.len := rfl
@[simp] theorem State.setRdata_idx : (s.setRdata v).idx = s.idx := rfl
@[simp] theorem State.setRdata_sum : (s.setRdata v).sum = s.sum := rfl
@[simp] theorem State.setRdata_buf : (s.setRdata v).buf = s.buf := rfl
@[simp] theorem State.setRdata_status : (s.setRdata v).status = s.status := rfl
@[simp] theorem State.setRdata_ok : (s.setRdata v).ok = s.ok := rfl
@[simp] theorem State.setRdata_ckOk : (s.setRdata v).ckOk = s.ckOk := rfl
@[simp] theorem State.setRdata_hdrOk : (s.setRdata v).hdrOk = s.hdrOk := rfl
@[simp] theorem State.setRdata_resValid : (s.setRdata v).resValid = s.resValid := rfl
@[simp] theorem State.setRdata_resKind : (s.setRdata v).resKind = s.resKind := rfl
@[simp] theorem State.setRdata_ckCalc : (s.setRdata v).ckCalc = s.ckCalc := rfl
@[simp] theorem State.setRdata_ckRecv : (s.setRdata v).ckRecv = s.ckRecv := rfl
@[simp] theorem State.setRdata_dist : (s.setRdata v).dist = s.dist := rfl
@[simp] theorem State.setRdata_strength : (s.setRdata v).strength = s.strength := rfl
@[simp] theorem State.setRdata_tempRaw : (s.setRdata v).tempRaw = s.tempRaw := rfl
@[simp] theorem State.setRdata_errCode : (s.setRdata v).errCode = s.errCode := rfl
@[simp] theorem State.setRdata_rdata : (s.setRdata v).rdata = v := rfl
@[simp] theorem State.setRdata_inputs : (s.setRdata v).inputs = s.inputs := rfl
@[simp] theorem State.setRdata_awaitingReset : (s.setRdata v).awaitingReset = s.awaitingReset := rfl
@[simp] theorem State.setRdata_powerUps : (s.setRdata v).powerUps = s.powerUps := rfl

end setRdata

section startFrame
variable (s : State) (k : FrameKind) (n : Nibble)

@[simp] theorem State.startFrame_phase : (s.startFrame k n).phase = .collect := rfl
@[simp] theorem State.startFrame_kind : (s.startFrame k n).kind = k := rfl
@[simp] theorem State.startFrame_len : (s.startFrame k n).len = n := rfl
@[simp] theorem State.startFrame_idx : (s.startFrame k n).idx = 0#4 := rfl
@[simp] theorem State.startFrame_sum : (s.startFrame k n).sum = 0x00#8 := rfl
@[simp] theorem State.startFrame_buf : (s.startFrame k n).buf = s.buf := rfl
@[simp] theorem State.startFrame_status : (s.startFrame k n).status = s.status := rfl
@[simp] theorem State.startFrame_ok : (s.startFrame k n).ok = s.ok := rfl
@[simp] theorem State.startFrame_ckOk : (s.startFrame k n).ckOk = s.ckOk := rfl
@[simp] theorem State.startFrame_hdrOk : (s.startFrame k n).hdrOk = s.hdrOk := rfl
@[simp] theorem State.startFrame_resValid : (s.startFrame k n).resValid = false := rfl
@[simp] theorem State.startFrame_resKind : (s.startFrame k n).resKind = s.resKind := rfl
@[simp] theorem State.startFrame_ckCalc : (s.startFrame k n).ckCalc = s.ckCalc := rfl
@[simp] theorem State.startFrame_ckRecv : (s.startFrame k n).ckRecv = s.ckRecv := rfl
@[simp] theorem State.startFrame_dist : (s.startFrame k n).dist = s.dist := rfl
@[simp] theorem State.startFrame_strength : (s.startFrame k n).strength = s.strength := rfl
@[simp] theorem State.startFrame_tempRaw : (s.startFrame k n).tempRaw = s.tempRaw := rfl
@[simp] theorem State.startFrame_errCode : (s.startFrame k n).errCode = s.errCode := rfl
@[simp] theorem State.startFrame_rdata : (s.startFrame k n).rdata = s.rdata := rfl
@[simp] theorem State.startFrame_inputs : (s.startFrame k n).inputs = s.inputs := rfl
@[simp] theorem State.startFrame_awaitingReset : (s.startFrame k n).awaitingReset = s.awaitingReset := rfl
@[simp] theorem State.startFrame_powerUps : (s.startFrame k n).powerUps = s.powerUps := rfl

end startFrame

section clearElements
variable (s : State)

@[simp] theorem State.clearElements_phase : s.clearElements.phase = .idle := rfl
@[simp] theorem State.clearElements_kind : s.clearElements.kind = .meas := rfl
@[simp] theorem State.clearElements_len : s.clearElements.len = 0#4 := rfl
@[simp] theorem State.clearElements_idx : s.clearElements.idx = 0#4 := rfl
@[simp] theorem State.clearElements_sum : s.clearElements.sum = 0x00#8 := rfl
@[simp] theorem State.clearElements_buf : s.clearElements.buf = [] := rfl
@[simp] theorem State.clearElements_status : s.clearElements.status = 0#4 := rfl
@[simp] theorem State.clearElements_ok : s.clearElements.ok = false := rfl
@[simp] theorem State.clearElements_ckOk : s.clearElements.ckOk = false := rfl
@[simp] theorem State.clearElements_hdrOk : s.clearElements.hdrOk = false := rfl
@[simp] theorem State.clearElements_resValid : s.clearElements.resValid = false := rfl
@[simp] theorem State.clearElements_resKind : s.clearElements.resKind = .meas := rfl
@[simp] theorem State.clearElements_ckCalc : s.clearElements.ckCalc = 0x00#8 := rfl
@[simp] theorem State.clearElements_ckRecv : s.clearElements.ckRecv = 0x00#8 := rfl
@[simp] theorem State.clearElements_dist : s.clearElements.dist = 0x0000#16 := rfl
@[simp] theorem State.clearElements_strength : s.clearElements.strength = 0x0000#16 := rfl
@[simp] theorem State.clearElements_tempRaw : s.clearElements.tempRaw = 0x0000#16 := rfl
@[simp] theorem State.clearElements_errCode : s.clearElements.errCode = 0#3 := rfl
@[simp] theorem State.clearElements_rdata : s.clearElements.rdata = 0x0000#16 := rfl
@[simp] theorem State.clearElements_inputs : s.clearElements.inputs = s.inputs := rfl
@[simp] theorem State.clearElements_awaitingReset : s.clearElements.awaitingReset = s.awaitingReset := rfl
@[simp] theorem State.clearElements_powerUps : s.clearElements.powerUps = s.powerUps := rfl

end clearElements

section resetEdge
variable (s : State)

@[simp] theorem State.resetEdge_phase : s.resetEdge.phase = .idle := rfl
@[simp] theorem State.resetEdge_kind : s.resetEdge.kind = .meas := rfl
@[simp] theorem State.resetEdge_len : s.resetEdge.len = 0#4 := rfl
@[simp] theorem State.resetEdge_idx : s.resetEdge.idx = 0#4 := rfl
@[simp] theorem State.resetEdge_sum : s.resetEdge.sum = 0x00#8 := rfl
@[simp] theorem State.resetEdge_buf : s.resetEdge.buf = [] := rfl
@[simp] theorem State.resetEdge_status : s.resetEdge.status = 0#4 := rfl
@[simp] theorem State.resetEdge_ok : s.resetEdge.ok = false := rfl
@[simp] theorem State.resetEdge_ckOk : s.resetEdge.ckOk = false := rfl
@[simp] theorem State.resetEdge_hdrOk : s.resetEdge.hdrOk = false := rfl
@[simp] theorem State.resetEdge_resValid : s.resetEdge.resValid = false := rfl
@[simp] theorem State.resetEdge_resKind : s.resetEdge.resKind = .meas := rfl
@[simp] theorem State.resetEdge_ckCalc : s.resetEdge.ckCalc = 0x00#8 := rfl
@[simp] theorem State.resetEdge_ckRecv : s.resetEdge.ckRecv = 0x00#8 := rfl
@[simp] theorem State.resetEdge_dist : s.resetEdge.dist = 0x0000#16 := rfl
@[simp] theorem State.resetEdge_strength : s.resetEdge.strength = 0x0000#16 := rfl
@[simp] theorem State.resetEdge_tempRaw : s.resetEdge.tempRaw = 0x0000#16 := rfl
@[simp] theorem State.resetEdge_errCode : s.resetEdge.errCode = 0#3 := rfl
@[simp] theorem State.resetEdge_rdata : s.resetEdge.rdata = 0x0000#16 := rfl
@[simp] theorem State.resetEdge_inputs : s.resetEdge.inputs = s.inputs := rfl
@[simp] theorem State.resetEdge_awaitingReset : s.resetEdge.awaitingReset = false := rfl
@[simp] theorem State.resetEdge_powerUps : s.resetEdge.powerUps = s.powerUps := rfl

end resetEdge

section latchVerdict
variable (s : State) (m : Bool) (d : Byte)

@[simp] theorem State.latchVerdict_phase : (s.latchVerdict m d).phase = .done := rfl
@[simp] theorem State.latchVerdict_kind : (s.latchVerdict m d).kind = s.kind := rfl
@[simp] theorem State.latchVerdict_len : (s.latchVerdict m d).len = s.len := rfl
@[simp] theorem State.latchVerdict_idx : (s.latchVerdict m d).idx = s.idx := rfl
@[simp] theorem State.latchVerdict_sum : (s.latchVerdict m d).sum = s.sum := rfl
@[simp] theorem State.latchVerdict_buf : (s.latchVerdict m d).buf = s.buf := rfl
@[simp] theorem State.latchVerdict_status : (s.latchVerdict m d).status = s.status := rfl
@[simp] theorem State.latchVerdict_ok : (s.latchVerdict m d).ok = s.ok := rfl
@[simp] theorem State.latchVerdict_ckOk : (s.latchVerdict m d).ckOk = m := rfl
@[simp] theorem State.latchVerdict_hdrOk : (s.latchVerdict m d).hdrOk = s.hdrOk := rfl
@[simp] theorem State.latchVerdict_resValid : (s.latchVerdict m d).resValid = true := rfl
@[simp] theorem State.latchVerdict_resKind : (s.latchVerdict m d).resKind = s.kind := rfl
@[simp] theorem State.latchVerdict_ckCalc : (s.latchVerdict m d).ckCalc = s.sum := rfl
@[simp] theorem State.latchVerdict_ckRecv : (s.latchVerdict m d).ckRecv = d := rfl
@[simp] theorem State.latchVerdict_dist : (s.latchVerdict m d).dist = s.dist := rfl
@[simp] theorem State.latchVerdict_strength : (s.latchVerdict m d).strength = s.strength := rfl
@[simp] theorem State.latchVerdict_tempRaw : (s.latchVerdict m d).tempRaw = s.tempRaw := rfl
@[simp] theorem State.latchVerdict_errCode : (s.latchVerdict m d).errCode = s.errCode := rfl
@[simp] theorem State.latchVerdict_rdata : (s.latchVerdict m d).rdata = s.rdata := rfl
@[simp] theorem State.latchVerdict_inputs : (s.latchVerdict m d).inputs = s.inputs := rfl
@[simp] theorem State.latchVerdict_awaitingReset : (s.latchVerdict m d).awaitingReset = s.awaitingReset := rfl
@[simp] theorem State.latchVerdict_powerUps : (s.latchVerdict m d).powerUps = s.powerUps := rfl

end latchVerdict

section setOutcome
variable (s : State) (c : StatusCode)

@[simp] theorem State.setOutcome_phase : (s.setOutcome c).phase = s.phase := rfl
@[simp] theorem State.setOutcome_kind : (s.setOutcome c).kind = s.kind := rfl
@[simp] theorem State.setOutcome_len : (s.setOutcome c).len = s.len := rfl
@[simp] theorem State.setOutcome_idx : (s.setOutcome c).idx = s.idx := rfl
@[simp] theorem State.setOutcome_sum : (s.setOutcome c).sum = s.sum := rfl
@[simp] theorem State.setOutcome_buf : (s.setOutcome c).buf = s.buf := rfl
@[simp] theorem State.setOutcome_status : (s.setOutcome c).status = c.code := rfl
@[simp] theorem State.setOutcome_ok : (s.setOutcome c).ok = Sys2Proof.Machine.okOf c := rfl
@[simp] theorem State.setOutcome_ckOk : (s.setOutcome c).ckOk = s.ckOk := rfl
@[simp] theorem State.setOutcome_hdrOk : (s.setOutcome c).hdrOk = s.hdrOk := rfl
@[simp] theorem State.setOutcome_resValid : (s.setOutcome c).resValid = s.resValid := rfl
@[simp] theorem State.setOutcome_resKind : (s.setOutcome c).resKind = s.resKind := rfl
@[simp] theorem State.setOutcome_ckCalc : (s.setOutcome c).ckCalc = s.ckCalc := rfl
@[simp] theorem State.setOutcome_ckRecv : (s.setOutcome c).ckRecv = s.ckRecv := rfl
@[simp] theorem State.setOutcome_dist : (s.setOutcome c).dist = s.dist := rfl
@[simp] theorem State.setOutcome_strength : (s.setOutcome c).strength = s.strength := rfl
@[simp] theorem State.setOutcome_tempRaw : (s.setOutcome c).tempRaw = s.tempRaw := rfl
@[simp] theorem State.setOutcome_errCode : (s.setOutcome c).errCode = s.errCode := rfl
@[simp] theorem State.setOutcome_rdata : (s.setOutcome c).rdata = s.rdata := rfl
@[simp] theorem State.setOutcome_inputs : (s.setOutcome c).inputs = s.inputs := rfl
@[simp] theorem State.setOutcome_awaitingReset : (s.setOutcome c).awaitingReset = s.awaitingReset := rfl
@[simp] theorem State.setOutcome_powerUps : (s.setOutcome c).powerUps = s.powerUps := rfl

end setOutcome

section latchFields
variable (s : State)

@[simp] theorem State.latchFields_phase : s.latchFields.phase = s.phase := rfl
@[simp] theorem State.latchFields_kind : s.latchFields.kind = s.kind := rfl
@[simp] theorem State.latchFields_len : s.latchFields.len = s.len := rfl
@[simp] theorem State.latchFields_idx : s.latchFields.idx = s.idx := rfl
@[simp] theorem State.latchFields_sum : s.latchFields.sum = s.sum := rfl
@[simp] theorem State.latchFields_buf : s.latchFields.buf = s.buf := rfl
@[simp] theorem State.latchFields_status : s.latchFields.status = s.status := rfl
@[simp] theorem State.latchFields_ok : s.latchFields.ok = s.ok := rfl
@[simp] theorem State.latchFields_ckOk : s.latchFields.ckOk = s.ckOk := rfl
@[simp] theorem State.latchFields_hdrOk : s.latchFields.hdrOk = s.hdrOk := rfl
@[simp] theorem State.latchFields_resValid : s.latchFields.resValid = s.resValid := rfl
@[simp] theorem State.latchFields_resKind : s.latchFields.resKind = s.resKind := rfl
@[simp] theorem State.latchFields_ckCalc : s.latchFields.ckCalc = s.ckCalc := rfl
@[simp] theorem State.latchFields_ckRecv : s.latchFields.ckRecv = s.ckRecv := rfl
@[simp] theorem State.latchFields_dist : s.latchFields.dist = s.frameDistance := rfl
@[simp] theorem State.latchFields_strength : s.latchFields.strength = s.frameStrength := rfl
@[simp] theorem State.latchFields_tempRaw : s.latchFields.tempRaw = s.frameTempRaw := rfl
@[simp] theorem State.latchFields_errCode : s.latchFields.errCode = s.errCode := rfl
@[simp] theorem State.latchFields_rdata : s.latchFields.rdata = s.rdata := rfl
@[simp] theorem State.latchFields_inputs : s.latchFields.inputs = s.inputs := rfl
@[simp] theorem State.latchFields_awaitingReset : s.latchFields.awaitingReset = s.awaitingReset := rfl
@[simp] theorem State.latchFields_powerUps : s.latchFields.powerUps = s.powerUps := rfl

end latchFields

section dropInput
variable (s : State)

@[simp] theorem State.dropInput_phase : s.dropInput.phase = s.phase := rfl
@[simp] theorem State.dropInput_kind : s.dropInput.kind = s.kind := rfl
@[simp] theorem State.dropInput_len : s.dropInput.len = s.len := rfl
@[simp] theorem State.dropInput_idx : s.dropInput.idx = s.idx := rfl
@[simp] theorem State.dropInput_sum : s.dropInput.sum = s.sum := rfl
@[simp] theorem State.dropInput_buf : s.dropInput.buf = s.buf := rfl
@[simp] theorem State.dropInput_status : s.dropInput.status = s.status := rfl
@[simp] theorem State.dropInput_ok : s.dropInput.ok = s.ok := rfl
@[simp] theorem State.dropInput_ckOk : s.dropInput.ckOk = s.ckOk := rfl
@[simp] theorem State.dropInput_hdrOk : s.dropInput.hdrOk = s.hdrOk := rfl
@[simp] theorem State.dropInput_resValid : s.dropInput.resValid = s.resValid := rfl
@[simp] theorem State.dropInput_resKind : s.dropInput.resKind = s.resKind := rfl
@[simp] theorem State.dropInput_ckCalc : s.dropInput.ckCalc = s.ckCalc := rfl
@[simp] theorem State.dropInput_ckRecv : s.dropInput.ckRecv = s.ckRecv := rfl
@[simp] theorem State.dropInput_dist : s.dropInput.dist = s.dist := rfl
@[simp] theorem State.dropInput_strength : s.dropInput.strength = s.strength := rfl
@[simp] theorem State.dropInput_tempRaw : s.dropInput.tempRaw = s.tempRaw := rfl
@[simp] theorem State.dropInput_errCode : s.dropInput.errCode = s.errCode := rfl
@[simp] theorem State.dropInput_rdata : s.dropInput.rdata = s.rdata := rfl
@[simp] theorem State.dropInput_inputs : s.dropInput.inputs = s.inputs.tail := rfl
@[simp] theorem State.dropInput_awaitingReset : s.dropInput.awaitingReset = s.awaitingReset := rfl
@[simp] theorem State.dropInput_powerUps : s.dropInput.powerUps = s.powerUps := rfl

end dropInput

section presentWord
variable (s : State) (w : Word)

@[simp] theorem State.presentWord_phase : (s.presentWord w).phase = s.phase := rfl
@[simp] theorem State.presentWord_kind : (s.presentWord w).kind = s.kind := rfl
@[simp] theorem State.presentWord_len : (s.presentWord w).len = s.len := rfl
@[simp] theorem State.presentWord_idx : (s.presentWord w).idx = s.idx := rfl
@[simp] theorem State.presentWord_sum : (s.presentWord w).sum = s.sum := rfl
@[simp] theorem State.presentWord_buf : (s.presentWord w).buf = s.buf := rfl
@[simp] theorem State.presentWord_status : (s.presentWord w).status = s.status := rfl
@[simp] theorem State.presentWord_ok : (s.presentWord w).ok = s.ok := rfl
@[simp] theorem State.presentWord_ckOk : (s.presentWord w).ckOk = s.ckOk := rfl
@[simp] theorem State.presentWord_hdrOk : (s.presentWord w).hdrOk = s.hdrOk := rfl
@[simp] theorem State.presentWord_resValid : (s.presentWord w).resValid = s.resValid := rfl
@[simp] theorem State.presentWord_resKind : (s.presentWord w).resKind = s.resKind := rfl
@[simp] theorem State.presentWord_ckCalc : (s.presentWord w).ckCalc = s.ckCalc := rfl
@[simp] theorem State.presentWord_ckRecv : (s.presentWord w).ckRecv = s.ckRecv := rfl
@[simp] theorem State.presentWord_dist : (s.presentWord w).dist = s.dist := rfl
@[simp] theorem State.presentWord_strength : (s.presentWord w).strength = s.strength := rfl
@[simp] theorem State.presentWord_tempRaw : (s.presentWord w).tempRaw = s.tempRaw := rfl
@[simp] theorem State.presentWord_errCode : (s.presentWord w).errCode = s.errCode := rfl
@[simp] theorem State.presentWord_rdata : (s.presentWord w).rdata = s.rdata := rfl
@[simp] theorem State.presentWord_inputs : (s.presentWord w).inputs = .edge (Pins.command w) :: s.inputs.tail := rfl
@[simp] theorem State.presentWord_awaitingReset : (s.presentWord w).awaitingReset = s.awaitingReset := rfl
@[simp] theorem State.presentWord_powerUps : (s.presentWord w).powerUps = s.powerUps := rfl

end presentWord

@[simp] theorem State.powerUp_inputs (s : State) : s.powerUp.inputs = s.inputs := rfl
@[simp] theorem State.powerUp_awaitingReset (s : State) : s.powerUp.awaitingReset = true := rfl
@[simp] theorem State.powerUp_powerUps (s : State) : s.powerUp.powerUps = s.powerUps + 1 := rfl

end Sys2Proof.Machine
end

