-- ==== Sys2Proof/Laws/Ops.lean ====
section
/-! SUPPORT. What each shared operation can do, said once: provers cite these instead of unfolding the operation. -/

namespace Sys2Proof.Machine

/-- Storing a byte succeeds exactly at the buffer's addresses, and changes the buffer only. -/
theorem State.storeByte_eq_some {s t : State} {a : Nat} {v : Byte} :
    s.storeByte a v = some t ↔ a < 9 ∧ t = { s with buf := Memory.write s.buf a v } := by
  unfold State.storeByte
  split <;> simp_all [eq_comm]

theorem State.storeByte_of_lt {s : State} {a : Nat} (v : Byte) (h : a < 9) :
    s.storeByte a v = some { s with buf := Memory.write s.buf a v } := State.storeByte_eq_some.mpr ⟨h, rfl⟩

theorem State.storeByte_of_ge {s : State} {a : Nat} (v : Byte) (h : 9 ≤ a) : s.storeByte a v = none := by
  simp [State.storeByte, show ¬ a < 9 by omega]

@[simp] theorem firstError_zero (c : BitVec 3) : firstError 0#3 c = c := rfl

theorem firstError_of_ne {r : BitVec 3} (c : BitVec 3) (h : r ≠ 0#3) : firstError r c = r := if_neg h

@[simp] theorem firstError_none (r : BitVec 3) : firstError r 0#3 = r := by
  unfold firstError; split <;> simp_all

/-- Reading out: the value where there is one, else 0x0000 and BAD_SEL; `rdata` and `err_code` are all it writes. -/
theorem State.readOut_eq (s : State) (v : Option Word) :
    s.readOut v = { s with
      rdata := v.getD 0#16
      errCode := if v.isNone = true then firstError s.errCode 4#3 else s.errCode } := by
  cases v with
  | some w => simp [State.readOut, State.setRdata]
  | none => rfl

/-- The header flag as a proposition (41_frame.md R128). -/
theorem headerSeen_eq (b0 b1 : Byte) : headerSeen b0 b1 = decide (b0 = 0x59#8 ∧ b1 = 0x59#8) := by
  rw [Bool.decide_and]; rfl

/-- The lengths START.R accepts (40_control.md R104). -/
theorem rawLenOk_iff (n : Nibble) : rawLenOk n = true ↔ 1 ≤ n.toNat ∧ n.toNat ≤ 9 := by simp [rawLenOk]

/-- The selectors outside the register-select space (20_memory.md R51). -/
theorem State.selectorValue_isNone (s : State) (r : Nibble) : (s.selectorValue r).isNone = true ↔ 8 ≤ r.toNat := by
  have := r.isLt
  unfold State.selectorValue
  split <;> simp_all
  omega

/-- RDBUF's value at an address of the buffer (42_readout.md R162). -/
theorem State.bufferValue_of_le (s : State) {i : Nibble} (h : i.toNat ≤ 8) :
    s.bufferValue i = some ((Memory.read s.buf i.toNat).setWidth 16) :=
  if_pos (show i.toNat < 9 by omega)

/-- The addresses outside the buffer (20_memory.md R50). -/
theorem State.bufferValue_isNone (s : State) (i : Nibble) : (s.bufferValue i).isNone = true ↔ 9 ≤ i.toNat := by
  unfold State.bufferValue
  split <;> simp_all

/-- Completion of a measurement frame, every field (41_frame.md R124, R126 to R128). -/
theorem State.complete_meas {s : State} (d : Byte) (hk : s.kind = .meas) :
    s.complete d =
      let header := headerSeen (Memory.read s.buf 0) (Memory.read s.buf 1)
      let c := if s.sum = d then classify s.frameDistance s.frameStrength else .checksum
      { s with
        ckCalc := s.sum, ckRecv := d, ckOk := decide (s.sum = d), resKind := .meas, resValid := true, phase := .done
        hdrOk := header, status := c.code, ok := Sys2Proof.Machine.okOf c
        dist := if s.sum = d then s.frameDistance else s.dist
        strength := if s.sum = d then s.frameStrength else s.strength
        tempRaw := if s.sum = d then s.frameTempRaw else s.tempRaw } := by
  by_cases hm : s.sum = d
  · simp [State.complete, hk, hm, State.completeMeas, State.latchVerdict, State.latchFields, State.setOutcome,
      State.frameDistance, State.frameStrength, State.frameTempRaw]
  · simp [State.complete, hk, hm, State.completeMeas, State.latchVerdict, State.setOutcome]

/-- Completion of a raw frame, every field (41_frame.md R124, R130, R131). -/
theorem State.complete_raw {s : State} (d : Byte) (hk : s.kind = .raw) :
    s.complete d =
      { s with
        ckCalc := s.sum, ckRecv := d, ckOk := decide (s.sum = d), resKind := .raw, resValid := true, phase := .done
        hdrOk := false, status := (rawStatus (decide (s.sum = d))).code
        ok := Sys2Proof.Machine.okOf (rawStatus (decide (s.sum = d))) } := by
  have hb : (s.sum == d) = decide (s.sum = d) := rfl
  simp [State.complete, hk, hb, State.completeRaw, State.latchVerdict, State.setOutcome]

/-- What every completion writes and what it leaves (41_frame.md R124). -/
theorem State.complete_frame (s : State) (d : Byte) :
    (s.complete d).phase = .done ∧ (s.complete d).resValid = true ∧ (s.complete d).resKind = s.kind ∧
    (s.complete d).ckCalc = s.sum ∧ (s.complete d).ckRecv = d ∧ (s.complete d).ckOk = decide (s.sum = d) ∧
    (s.complete d).kind = s.kind ∧ (s.complete d).len = s.len ∧ (s.complete d).idx = s.idx ∧
    (s.complete d).sum = s.sum ∧ (s.complete d).buf = s.buf ∧ (s.complete d).errCode = s.errCode ∧
    (s.complete d).rdata = s.rdata ∧ (s.complete d).inputs = s.inputs ∧
    (s.complete d).awaitingReset = s.awaitingReset ∧ (s.complete d).powerUps = s.powerUps := by
  cases hk : s.kind with
  | meas => simp [State.complete_meas d hk, hk]
  | raw => simp [State.complete_raw d hk, hk]

/-- The status code a completion writes is one of the five, and `ok` says whether it is Ready. -/
theorem State.complete_status (s : State) (d : Byte) :
    ∃ c : StatusCode, (s.complete d).status = c.code ∧ (s.complete d).ok = decide (c = .ready) ∧
      (c = .ready ∨ c = .checksum ∨ c = .weak ∨ c = .strong ∨ c = .flood) := by
  have classified (D S : Word) : classify D S = .ready ∨ classify D S = .weak ∨ classify D S = .strong ∨ classify D S = .flood := by
    unfold classify; split <;> [skip; split <;> [skip; split]] <;> simp
  cases hk : s.kind with
  | meas =>
    refine ⟨_, by rw [State.complete_meas d hk], by rw [State.complete_meas d hk]; rfl, ?_⟩
    split
    · rcases classified s.frameDistance s.frameStrength with h | h | h | h <;> simp [h]
    · simp
  | raw =>
    refine ⟨_, by rw [State.complete_raw d hk], by rw [State.complete_raw d hk]; rfl, ?_⟩
    unfold rawStatus; split <;> simp

/-- Power-up leaves a buffer in its canonical form, whatever the free values. -/
theorem State.powerUp_buf_wf (s : State) : Memory.wf s.powerUp.buf = true := Memory.ofBytes_wf _ (Nat.le_refl _)

end Sys2Proof.Machine
end

