-- ==== Sys2Proof/Laws/Exec.lean ====
section
/-! SUPPORT. What each command can do, said once. -/

namespace Sys2Proof.Machine

/-- The three ways a PUSH can go on (41_frame.md R120). -/
theorem execPush_cases {d : Byte} {s t : State} (h : execPush d s = .next t) :
    (s.phase ≠ .collect ∧ t = s.recordErr .pushIdle) ∨
    (s.phase = .collect ∧ s.idx.toNat < 9 ∧ s.idx.toNat + 1 < s.len.toNat ∧
      t = { s with buf := Memory.write s.buf s.idx.toNat d, sum := s.sum + d, idx := s.idx + 1#4 }) ∨
    (s.phase = .collect ∧ s.idx.toNat < 9 ∧ ¬ s.idx.toNat + 1 < s.len.toNat ∧
      t = { s with buf := Memory.write s.buf s.idx.toNat d, idx := s.len }.complete d) := by
  unfold execPush at h
  split at h
  · next hp =>
    split at h
    · next u hu =>
      obtain ⟨hlt, rfl⟩ := State.storeByte_eq_some.mp hu
      cases h
      by_cases hf : s.idx.toNat + 1 < s.len.toNat
      · exact .inr (.inl ⟨hp, hlt, hf, by simp [State.acceptByte, hf]⟩)
      · exact .inr (.inr ⟨hp, hlt, hf, by simp [State.acceptByte, hf]⟩)
    · cases h
  · next hp => cases h; exact .inl ⟨hp, rfl⟩

theorem execPush_idle {d : Byte} {s : State} (h : s.phase ≠ .collect) : execPush d s = .next (s.recordErr .pushIdle) := by
  simp [execPush, h]

theorem execPush_more {d : Byte} {s : State} (hp : s.phase = .collect) (hi : s.idx.toNat < 9)
    (hm : s.idx.toNat + 1 < s.len.toNat) :
    execPush d s = .next { s with buf := Memory.write s.buf s.idx.toNat d, sum := s.sum + d, idx := s.idx + 1#4 } := by
  simp [execPush, hp, State.storeByte_of_lt d hi, State.acceptByte, hm]

theorem execPush_final {d : Byte} {s : State} (hp : s.phase = .collect) (hi : s.idx.toNat < 9)
    (hm : ¬ s.idx.toNat + 1 < s.len.toNat) :
    execPush d s = .next ({ s with buf := Memory.write s.buf s.idx.toNat d, idx := s.len }.complete d) := by
  simp [execPush, hp, State.storeByte_of_lt d hi, State.acceptByte, hm]

theorem execPush_outside {d : Byte} {s : State} (hp : s.phase = .collect) (hi : 9 ≤ s.idx.toNat) :
    execPush d s = .fault .bufferAddress := by
  simp [execPush, hp, State.storeByte_of_ge d hi]

/-- Every next state a command can answer. -/
theorem exec_cases {i : Instr} {s t : State} (h : exec i s = .next t) :
    (i = .nop ∧ t = s) ∨
    (i = .clear ∧ t = s.clearElements) ∨
    (i = .startM ∧ t = s.startFrame .meas 9#4) ∨
    (∃ n, i = .startR n ∧ rawLenOk n = true ∧ t = s.startFrame .raw n) ∨
    (∃ n, i = .startR n ∧ rawLenOk n = false ∧ t = s.recordErr .badLen) ∨
    (∃ d, i = .push d ∧ execPush d s = .next t) ∨
    (∃ r, i = .read r ∧ t = s.readOut (s.selectorValue r)) ∨
    (∃ a, i = .rdbuf a ∧ t = s.readOut (s.bufferValue a)) := by
  cases i with
  | nop => cases h; exact .inl ⟨rfl, rfl⟩
  | clear => cases h; exact .inr (.inl ⟨rfl, rfl⟩)
  | startM => cases h; exact .inr (.inr (.inl ⟨rfl, rfl⟩))
  | startR n =>
    simp only [exec, execStartR] at h
    split at h
    · next hn => cases h; exact .inr (.inr (.inr (.inl ⟨n, rfl, hn, rfl⟩)))
    · next hn => cases h; exact .inr (.inr (.inr (.inr (.inl ⟨n, rfl, by simpa using hn, rfl⟩))))
  | push d => exact .inr (.inr (.inr (.inr (.inr (.inl ⟨d, rfl, h⟩)))))
  | read r => cases h; exact .inr (.inr (.inr (.inr (.inr (.inr (.inl ⟨r, rfl, rfl⟩))))))
  | rdbuf a => cases h; exact .inr (.inr (.inr (.inr (.inr (.inr (.inr ⟨a, rfl, rfl⟩))))))

/-- No command touches what the outside will present, or the model's other own fields. -/
theorem exec_modelFields {i : Instr} {s t : State} (h : exec i s = .next t) :
    t.inputs = s.inputs ∧ t.awaitingReset = s.awaitingReset ∧ t.powerUps = s.powerUps := by
  rcases exec_cases h with ⟨-, rfl⟩ | ⟨-, rfl⟩ | ⟨-, rfl⟩ | ⟨n, -, -, rfl⟩ | ⟨n, -, -, rfl⟩ | ⟨d, -, hd⟩ | ⟨r, -, rfl⟩ | ⟨a, -, rfl⟩
  · simp
  · simp
  · simp
  · simp
  · simp
  · rcases execPush_cases hd with ⟨-, rfl⟩ | ⟨-, -, -, rfl⟩ | ⟨-, -, -, rfl⟩
    · simp
    · simp
    · obtain ⟨-, -, -, -, -, -, -, -, -, -, -, -, -, h1, h2, h3⟩ :=
        State.complete_frame { s with buf := Memory.write s.buf s.idx.toNat d, idx := s.len } d
      exact ⟨h1, h2, h3⟩
  · simp [State.readOut_eq]
  · simp [State.readOut_eq]

end Sys2Proof.Machine
end

