-- ==== Sys2Proof/Laws/PerInstr.lean ====
section
/-! SUPPORT. Facts about each command as syntax. The family `EncodedFields`: the op field of a command's word is the one of
30_encoding.md R72, and a field the command does not use is zero (R70). -/

namespace Sys2Proof.Laws.EncodedFields

open Sys2Proof

/-- The fields of the command's word: op, a, d (30_encoding.md R72). -/
def fieldsOf : Instr → Nibble × Nibble × Byte
  | .nop => (0#4, 0#4, 0#8)
  | .clear => (1#4, 0#4, 0#8)
  | .startM => (2#4, 0#4, 0#8)
  | .startR n => (3#4, n, 0#8)
  | .push d => (4#4, 0#4, d)
  | .read r => (5#4, r, 0#8)
  | .rdbuf i => (6#4, i, 0#8)

/-- The encoded word holds the command's fields. -/
def Statement (i : Instr) : Prop :=
  (opField (encode i), aField (encode i), dField (encode i)) = fieldsOf i

theorem nop : Statement .nop := by unfold Statement; decide

theorem clear : Statement .clear := by unfold Statement; decide

theorem startM : Statement .startM := by unfold Statement; decide

theorem startR (n : Nibble) : Statement (.startR n) := by
  revert n; unfold Statement; decide

theorem push (d : Byte) : Statement (.push d) := by
  revert d; unfold Statement; decide

theorem read (r : Nibble) : Statement (.read r) := by
  revert r; unfold Statement; decide

theorem rdbuf (i : Nibble) : Statement (.rdbuf i) := by
  revert i; unfold Statement; decide

end Sys2Proof.Laws.EncodedFields
end

