-- ==== Sys2Proof/Laws/Step.lean ====
section
/-! SUPPORT. What a step can do, said once. -/

namespace Sys2Proof.Machine

/-- Every next state a step can answer, by the input it takes. -/
theorem step_cases {s t : State} (h : step s = .next t) :
    (∃ p, s.nextInput = .edge p ∧ p.rst = true ∧ t = s.dropInput.resetEdge) ∨
    (∃ p i, s.nextInput = .edge p ∧ p.rst = false ∧ p.cmdValid = true ∧ s.awaitingReset = false ∧
      decode p.cmd = .legal i ∧ exec i s.dropInput = .next t) ∨
    (∃ p why, s.nextInput = .edge p ∧ p.rst = false ∧ p.cmdValid = true ∧ s.awaitingReset = false ∧
      decode p.cmd = .illegal why ∧ t = s.dropInput.recordErr .illegal) ∨
    (∃ p, s.nextInput = .edge p ∧ p.rst = false ∧ p.cmdValid = false ∧ t = s.dropInput) ∨
    (s.nextInput = .powerCycle ∧ t = s.dropInput.powerUp) := by
  unfold step at h
  cases hi : s.nextInput with
  | powerCycle =>
    rw [hi] at h; cases h
    exact .inr (.inr (.inr (.inr ⟨rfl, rfl⟩)))
  | edge p =>
    rw [hi] at h
    simp only [applyInput, clockEdge] at h
    by_cases hr : p.rst = true
    · rw [if_pos hr] at h; cases h
      exact .inl ⟨p, rfl, hr, rfl⟩
    · rw [if_neg hr] at h
      have hr' : p.rst = false := by simpa using hr
      by_cases hv : p.cmdValid = true
      · rw [if_pos hv] at h
        by_cases hw : s.awaitingReset = true
        · rw [if_pos (by simpa using hw)] at h; cases h
        · rw [if_neg (by simpa using hw)] at h
          have hw' : s.awaitingReset = false := by simpa using hw
          unfold runWord at h
          split at h
          · next i hd => exact .inr (.inl ⟨p, i, rfl, hr', hv, hw', hd, h⟩)
          · next why hd => cases h; exact .inr (.inr (.inl ⟨p, why, rfl, hr', hv, hw', hd, rfl⟩))
      · rw [if_neg hv] at h; cases h
        exact .inr (.inr (.inr (.inl ⟨p, rfl, hr', by simpa using hv, rfl⟩)))

end Sys2Proof.Machine
end

