-- ==== Sys2Proof/Tests/Slice0.lean ====
section
/-! SUPPORT. Tests with expected values from the spec's own examples and vectors (95_test_vectors.md), and for each statement with
hypotheses a witness that meets them. -/

namespace Sys2Proof.Tests

open Sys2Proof Sys2Proof.Machine

/-- The next state of an outcome, if it has one. -/
def nextOf : Result → Option State
  | .next s => some s
  | .fault _ => none
  | .refused _ => none

/-- The buffer after the first eight bytes of Scenario A: 59 59 64 00 C8 00 98 08 (95_test_vectors.md L1-A). -/
def bufA : Memory := [(0, 0x59#8), (1, 0x59#8), (2, 0x64#8), (4, 0xC8#8), (6, 0x98#8), (7, 0x08#8)]

/-- COLLECT with the first eight bytes of Scenario A pushed after START.M (95_test_vectors.md P1, words 0 to 8). -/
def beforeFinalA : State :=
  { State.reset with phase := .collect, len := 9#4, idx := 8#4, sum := 0x7E#8, buf := bufA }

/-- DONE after Scenario A (95_test_vectors.md P1, the end state but for `rdata`). -/
def doneA : State :=
  { State.reset with
    phase := .done, len := 9#4, idx := 9#4, sum := 0x7E#8, buf := bufA ++ [(8, 0x7E#8)], ok := true, ckOk := true, hdrOk := true
    resValid := true, ckCalc := 0x7E#8, ckRecv := 0x7E#8, dist := 0x0064#16, strength := 0x00C8#16, tempRaw := 0x0898#16 }

/-- A raw frame of seven bytes before its final one (95_test_vectors.md P3, words 0 to 6). -/
def beforeFinalC : State :=
  { State.reset with
    phase := .collect, kind := .raw, len := 7#4, idx := 6#4, sum := 0x69#8
    buf := [(0, 0x5A#8), (1, 0x07#8), (2, 0x01#8), (3, 0x07#8)] }

/-- A state whose next edge presents the word. -/
def presenting (s : State) (w : Word) : State := { s with inputs := [.edge (Pins.command w)] }

/-! ### Well-formedness -/

theorem test_wellFormed_startR : (AsmLine.startR 15).wellFormed = true ∧ (AsmLine.startR 16).wellFormed = false := by decide
theorem test_wellFormed_push : (AsmLine.push 255).wellFormed = true ∧ (AsmLine.push 256).wellFormed = false := by decide
theorem test_wellFormed_read : (AsmLine.read 15).wellFormed = true ∧ (AsmLine.read 16).wellFormed = false := by decide
theorem test_wellFormed_rdbuf : (AsmLine.rdbuf 15).wellFormed = true ∧ (AsmLine.rdbuf 16).wellFormed = false := by decide
theorem test_wellFormed_frameM_length :
    (AsmLine.frameM [1, 2, 3, 4, 5, 6, 7, 8, 9]).wellFormed = true ∧ (AsmLine.frameM [1, 2]).wellFormed = false := by decide
theorem test_wellFormed_frameM_byte : (AsmLine.frameM [1, 2, 3, 4, 5, 6, 7, 8, 256]).wellFormed = false := by decide
theorem test_wellFormed_frameR_length :
    (AsmLine.frameR []).wellFormed = false ∧ (AsmLine.frameR [1, 2, 3, 4, 5, 6, 7, 8, 9, 10]).wellFormed = false := by decide
theorem test_wellFormed_frameR_byte : (AsmLine.frameR [0]).wellFormed = true ∧ (AsmLine.frameR [300]).wellFormed = false := by decide

/-! ### Decoding: words written out from the patterns of 30_encoding.md R72, and the illegal ones of 95_test_vectors.md -/

theorem test_decode_nop : decode 0b0000000000000000#16 = .legal .nop := by decide
theorem test_decode_clear : decode 0b0001000000000000#16 = .legal .clear := by decide
theorem test_decode_startM : decode 0b0010000000000000#16 = .legal .startM := by decide
theorem test_decode_startR : decode 0b0011110000000000#16 = .legal (.startR 12#4) := by decide
theorem test_decode_push : decode 0b0100000001111110#16 = .legal (.push 0x7E#8) := by decide
theorem test_decode_read : decode 0b0101011000000000#16 = .legal (.read 6#4) := by decide
theorem test_decode_rdbuf : decode 0b0110001100000000#16 = .legal (.rdbuf 3#4) := by decide
theorem test_decode_nop_with_d : decode 0x0001#16 = .illegal .operandOfNone := by decide
theorem test_decode_push_with_a : decode 0x4100#16 = .illegal .aNotZero := by decide
theorem test_decode_startR_with_d : decode 0x3701#16 = .illegal .dNotZero := by decide
theorem test_decode_reserved_op : decode 0xF000#16 = .illegal .reservedOp := by decide
theorem test_decodeTableWord : decodeTableWord 16 0x5100 = some (.read 1#4) ∧ decodeTableWord 16 0x7123 = none := by decide

/-! ### The assembler's text (30_encoding.md R77, R78) -/

theorem test_assemble_push : assembleText "push 0x59 ; first header byte".toList = some [0x4059#16] := by decide
theorem test_assemble_selector : assembleText "READ TEMPC".toList = some [0x5400#16] := by decide
theorem test_assemble_rejected_value : assembleText "START.R 12".toList = some [0x3C00#16] := by decide
theorem test_assemble_refuses_wide : assembleText "START.R 16".toList = none := by decide
theorem test_assemble_frameR : assembleText "FRAME.R 0x5A, 90".toList = some [0x3200#16, 0x405A#16, 0x405A#16] := by decide
theorem test_assemble_comment_line : assembleText " ; nothing".toList = some [] := by decide

/-! ### Pure functions: 95_test_vectors.md V-TC, V-CL -/

theorem test_celsius_vectors :
    [0x0898#16, 0x0000#16, 0x0007#16, 0x0008#16, 0x07FF#16, 0x0800#16, 0x7FFF#16, 0x8000#16, 0xFFFF#16].map celsius =
      [0x0013#16, 0xFF00#16, 0xFF00#16, 0xFF01#16, 0xFFFF#16, 0x0000#16, 0x0EFF#16, 0xEF00#16, 0xFEFF#16] := by decide
theorem test_classify_vectors :
    [(0xFFFF#16, 0x00C8#16), (0xFFFC#16, 0x00C8#16), (0xFFFF#16, 0xFFFF#16), (0xFFFC#16, 0xFFFF#16), (0xFFFE#16, 0x00C8#16),
      (0x0064#16, 0xFFFF#16), (0x0064#16, 0xFFFC#16)].map (fun p => (classify p.1 p.2).code) =
      [10#4, 12#4, 10#4, 11#4, 0#4, 11#4, 0#4] := by decide

/-! ### One step each -/

/-- R101's example. -/
theorem test_nop : nextOf (exec .nop beforeFinalA) = some beforeFinalA := by decide
/-- V-CT8: CLEAR after Scenario A. -/
theorem test_clear : nextOf (exec .clear { doneA with errCode := 2#3 }) = some State.reset := by decide
/-- V-CT7: START.M after Scenario A keeps the results and clears `res_valid`. -/
theorem test_startM : (nextOf (exec .startM doneA)).map (fun s => (s.statusWord, s.ctrlWord, s.dist)) =
    some (0x0270#16, 0x0090#16, 0x0064#16) := by decide
/-- V-CT3: START.R 9. -/
theorem test_startR : (nextOf (exec (.startR 9#4) State.reset)).map (fun s => (s.statusWord, s.ctrlWord)) =
    some (0x0200#16, 0x0190#16) := by decide
/-- V-CT2: START.R 10. -/
theorem test_startR_badLen : (nextOf (exec (.startR 10#4) State.reset)).map (fun s => (s.statusWord, s.ctrlWord)) =
    some (0x3000#16, 0x0000#16) := by decide
/-- L1-A: the final byte of Scenario A. -/
theorem test_push_final : nextOf (exec (.push 0x7E#8) beforeFinalA) = some doneA := by decide
/-- L1-B: the final byte corrupted. -/
theorem test_push_mismatch : (nextOf (exec (.push 0x7F#8) beforeFinalA)).map
    (fun s => (s.statusWord, s.ckCalc ++ s.ckRecv, s.dist, Memory.read s.buf 8)) =
    some (0x04C3#16, 0x7E7F#16, 0x0000#16, 0x7F#8) := by decide
/-- P1: READ TEMPC after Scenario A. -/
theorem test_read : (nextOf (exec (.read 4#4) doneA)).map (·.rdata) = some 0x0013#16 := by decide
/-- V-RD2: READ 15 after Scenario A. -/
theorem test_read_badSel : (nextOf (exec (.read 15#4) { doneA with rdata := 0x0064#16 })).map
    (fun s => (s.rdata, s.statusWord)) = some (0x0000#16, 0x44F0#16) := by decide
/-- R162's example. -/
theorem test_rdbuf : (nextOf (exec (.rdbuf 8#4) doneA)).map (·.rdata) = some 0x007E#16 := by decide
/-- V-RD1: RDBUF 9. -/
theorem test_rdbuf_badSel : (nextOf (exec (.rdbuf 9#4) State.reset)).map (fun s => (s.rdata, s.errCode)) =
    some (0x0000#16, 4#3) := by decide
/-- V-EN5: an illegal word in COLLECT. -/
theorem test_illegal_word : (nextOf (step (presenting { beforeFinalA with idx := 2#4 } 0x8000#16))).map
    (fun s => (s.statusWord, s.idx)) = some (0x1200#16, 2#4) := by decide
/-- V-PU1: PUSH after DONE. -/
theorem test_push_after_done : (nextOf (step (presenting doneA 0x4011#16))).map (·.statusWord) = some 0x24F0#16 := by decide
theorem test_step_runs_fetched_word :
    (nextOf (step (State.reset.withFetchWord 16 0x5400))).map (·.rdata) = some 0xFF00#16 := by decide

/-! ### Witnesses: states and operands that meet the hypotheses of the statements -/

theorem beforeFinalA_inv : beforeFinalA.Inv :=
  ⟨by decide, fun _ => ⟨nofun, fun _ => by decide, nofun, fun _ _ => rfl, nofun, .inl rfl, by decide, nofun⟩⟩

theorem doneA_inv : doneA.Inv :=
  ⟨by decide, fun _ => ⟨nofun, nofun, fun _ => by decide, fun _ _ => rfl, nofun, .inl rfl, by decide, fun _ => rfl⟩⟩

theorem doneA_results : doneA.ResultsSound := fun _ _ =>
  ⟨rfl, by decide, by decide, by decide, by decide, by decide, fun _ => by decide,
    fun _ m h => by
      have : m = ⟨0x0064#16, 0x00C8#16, 0x0898#16⟩ := by
        have e : (decodeFrame doneA.bytes).1 = some ⟨0x0064#16, 0x00C8#16, 0x0898#16⟩ := by decide
        rw [e] at h; exact (Option.some.inj h).symm
      subst this; exact ⟨rfl, rfl, rfl⟩,
    nofun⟩

/-- What the outside will present does not enter the invariant. -/
theorem presenting_inv {s : State} (w : Word) (h : s.Inv) : (presenting s w).Inv :=
  ⟨h.bufWf, fun a => ⟨(h.form a).idle, (h.form a).collect, (h.form a).done, (h.form a).measLen, (h.form a).phaseLegal,
    (h.form a).statusLegal, (h.form a).errLegal, (h.form a).validDone⟩⟩

theorem reset_atResetValues : State.reset.AtResetValues :=
  ⟨by decide, fun _ => rfl, by decide, by decide, by decide⟩

theorem witness_ResetAndClearLeaveResetValues :
    ({ doneA with inputs := [.edge ⟨true, true, 0x4059#16⟩] } : State).inputs = [.edge ⟨true, true, 0x4059#16⟩] ∧
    State.reset.AtResetValues := ⟨rfl, reset_atResetValues⟩

theorem witness_ResetEdgeOverridesCommand :
    ∃ (ps : List Pins) (s : State), ps ≠ [] ∧ (∀ p ∈ ps, p.rst = true) ∧ s.inputs = ps.map .edge ++ [.powerCycle] :=
  ⟨[⟨true, true, 0x4059#16⟩, ⟨true, false, 0#16⟩],
    { doneA with inputs := [.edge ⟨true, true, 0x4059#16⟩, .edge ⟨true, false, 0#16⟩, .powerCycle] }, by decide, by decide, rfl⟩

theorem witness_StepRunsPresentedWord :
    (presenting doneA 0x5100#16).inputs = .edge ⟨false, true, 0x5100#16⟩ :: [] ∧ (presenting doneA 0x5100#16).awaitingReset = false ∧
    decode 0x5100#16 = .legal (.read 1#4) ∧ decode 0x8000#16 = .illegal .reservedOp := by decide

theorem witness_IdleEdgesHoldState :
    ∃ (ps : List Pins) (s : State), ps.length = 2 ∧ (∀ p ∈ ps, p.rst = false ∧ p.cmdValid = false) ∧ s.inputs = ps.map .edge ++ [] :=
  ⟨[Pins.idle, Pins.idle], { doneA with inputs := [.edge Pins.idle, .edge Pins.idle] }, rfl, by decide, rfl⟩

theorem witness_NoInputLeavesStateUnchanged : doneA.inputs = [] := rfl

theorem witness_CommandBeforeFirstResetRefused :
    ({ State.reset with inputs := [.powerCycle] } : State).inputs = .powerCycle :: [] ∧
    ({ presenting State.reset 0x0000#16 with awaitingReset := true } : State).awaitingReset = true ∧
    (Pins.command 0x0000#16).rst = false ∧ (Pins.command 0x0000#16).cmdValid = true ∧ (⟨true, false, 0#16⟩ : Pins).rst = true := by
  decide

theorem witness_IllegalWordsRecordIllegal : decode 0x4F00#16 = .illegal .aNotZero := by decide

theorem witness_AssemblerLineWords : 15 < 16 ∧ 16 ≤ 16 ∧ 255 < 256 ∧ 256 ≤ 256 := by decide

theorem witness_PseudoInstructionWords :
    (∀ b ∈ [0x59, 0x59, 0x64, 0, 0xC8, 0, 0x98, 8, 255], b < 256) ∧ [0x59, 0x59, 0x64, 0, 0xC8, 0, 0x98, 8, 255].length = 9 ∧
    (∀ b ∈ [0], b < 256) ∧ 1 ≤ [0].length := by decide

theorem witness_NopChangesNothing : opField 0x0001#16 = 0#4 ∧ 0x0001#16 ≠ 0x0000#16 := by decide

theorem witness_ClearIsSoftReset :
    (nextOf (exec .clear { doneA with errCode := 2#3 })).map (·.errCode) = some 0#3 ∧
    ({ doneA with errCode := 2#3 } : State).errCode ≠ 0#3 := by decide

theorem witness_StartRBeginsRawFrame :
    (1 ≤ (1#4).toNat ∧ (1#4).toNat ≤ 9) ∧ (1 ≤ (9#4).toNat ∧ (9#4).toNat ≤ 9) ∧ (0#4).toNat = 0 ∧ 10 ≤ (10#4).toNat ∧
    10 ≤ (15#4).toNat := by decide

/-- Outside COLLECT; the final byte at the last address; the final byte of a frame of one; the last non-final byte. -/
theorem witness_PushAppendsByte :
    State.reset.phase ≠ .collect ∧
    (beforeFinalA.phase = .collect ∧ beforeFinalA.idx.toNat ≤ 8 ∧ Memory.wf beforeFinalA.buf = true ∧
      ¬ beforeFinalA.idx.toNat + 1 < beforeFinalA.len.toNat) ∧
    (¬ (State.reset.startFrame .raw 1#4).idx.toNat + 1 < (State.reset.startFrame .raw 1#4).len.toNat) ∧
    ({ beforeFinalA with idx := 7#4 } : State).idx.toNat + 1 < beforeFinalA.len.toNat := by decide

theorem witness_PushOutsideBufferFaults :
    ({ beforeFinalA with idx := 9#4 } : State).phase = .collect ∧ 9 ≤ ({ beforeFinalA with idx := 9#4 } : State).idx.toNat := by decide

theorem beforeFinalA_final : beforeFinalA.finalByte := by unfold State.finalByte; decide

theorem beforeFinalC_final : beforeFinalC.finalByte := by unfold State.finalByte; decide

theorem witness_PassingMeasFrameWritesFields :
    beforeFinalA.phase = .collect ∧ beforeFinalA.idx.toNat ≤ 8 ∧ beforeFinalA.finalByte ∧ beforeFinalA.kind = .meas ∧
    Memory.wf beforeFinalA.buf = true ∧ beforeFinalA.sum = 0x7E#8 :=
  ⟨rfl, by decide, beforeFinalA_final, rfl, by decide, rfl⟩

theorem witness_FailingMeasFrameKeepsFields :
    beforeFinalA.phase = .collect ∧ beforeFinalA.idx.toNat ≤ 8 ∧ beforeFinalA.finalByte ∧ beforeFinalA.kind = .meas ∧
    Memory.wf beforeFinalA.buf = true ∧ beforeFinalA.sum ≠ 0x7F#8 :=
  ⟨rfl, by decide, beforeFinalA_final, rfl, by decide, by decide⟩

theorem witness_RawFrameOutcome :
    beforeFinalC.phase = .collect ∧ beforeFinalC.idx.toNat ≤ 8 ∧ beforeFinalC.finalByte ∧ beforeFinalC.kind = .raw ∧
    Memory.wf beforeFinalC.buf = true :=
  ⟨rfl, by decide, beforeFinalC_final, rfl, by decide⟩

theorem witness_HeaderBytesDecideNothing :
    beforeFinalA.phase = .collect ∧ 2 ≤ beforeFinalA.idx.toNat ∧ beforeFinalA.idx.toNat ≤ 8 ∧ beforeFinalA.finalByte ∧
    beforeFinalA.kind = .meas ∧ Memory.wf beforeFinalA.buf = true :=
  ⟨rfl, by decide, by decide, beforeFinalA_final, rfl, by decide⟩

theorem witness_CompletionComparesFrameChecksum :
    beforeFinalA.Inv ∧ beforeFinalA.awaitingReset = false ∧ beforeFinalA.phase = .collect ∧ beforeFinalA.finalByte ∧ 1 ≤ 1 :=
  ⟨beforeFinalA_inv, rfl, rfl, beforeFinalA_final, Nat.le_refl 1⟩

theorem witness_CelsiusIsArithmeticShift : (0x7FFF#16).getLsbD 15 = false ∧ (0x8000#16).getLsbD 15 = true := by decide

theorem witness_ReadCopiesSelectedValue : 8 ≤ (8#4).toNat ∧ 8 ≤ (15#4).toNat := by decide

theorem witness_StatusWordLayout :
    State.reset.phase = .idle ∧ beforeFinalA.phase = .collect ∧ doneA.phase = .done ∧ State.reset.AtResetValues :=
  ⟨rfl, rfl, rfl, reset_atResetValues⟩

theorem witness_CtrlWordLayout :
    State.reset.AtResetValues ∧ exec .startM doneA = .next (doneA.startFrame .meas 9#4) ∧
    (beforeFinalA.Inv ∧ beforeFinalA.awaitingReset = false ∧ beforeFinalA.phase = .collect ∧ beforeFinalA.kind = .meas ∧
      beforeFinalA.finalByte) :=
  ⟨reset_atResetValues, rfl, beforeFinalA_inv, rfl, rfl, rfl, beforeFinalA_final⟩

theorem witness_TempcFollowsTempRaw : State.reset.AtResetValues := reset_atResetValues

theorem witness_RdbufCopiesBufferByte : (8#4).toNat ≤ 8 ∧ 9 ≤ (9#4).toNat ∧ 9 ≤ (15#4).toNat := by decide

theorem witness_ReadsAreIdempotent :
    (∃ t, exec (.read 0#4) doneA = .next t) ∧ (∃ t, exec (.rdbuf 9#4) doneA = .next t) := ⟨⟨_, rfl⟩, ⟨_, rfl⟩⟩

/-- Two states that differ in `rdata` only. -/
theorem witness_HostObservesWholeState :
    Memory.wf doneA.buf = true ∧
    (∀ r : Nibble, r.toNat ≤ 7 → ∃ w, exec (.read r) doneA = .next { doneA with rdata := w } ∧
      exec (.read r) { doneA with rdata := 1#16 } = .next { doneA with rdata := w }) ∧
    (∀ i : Nibble, i.toNat ≤ 8 → ∃ w, exec (.rdbuf i) doneA = .next { doneA with rdata := w } ∧
      exec (.rdbuf i) { doneA with rdata := 1#16 } = .next { doneA with rdata := w }) := by
  refine ⟨by decide, fun r hr => ?_, fun i hi => ?_⟩
  · have h : r = 0#4 ∨ r = 1#4 ∨ r = 2#4 ∨ r = 3#4 ∨ r = 4#4 ∨ r = 5#4 ∨ r = 6#4 ∨ r = 7#4 := by
      revert hr; revert r; decide
    rcases h with rfl | rfl | rfl | rfl | rfl | rfl | rfl | rfl <;> exact ⟨_, rfl, rfl⟩
  · refine ⟨(Memory.read doneA.buf i.toNat).setWidth 16, ?_, ?_⟩ <;>
      simp [exec, execRdbuf, State.bufferValue, show i.toNat < 9 by omega, State.readOut, State.setRdata, zext16]

theorem witness_BufferShowsFieldBytes :
    doneA.Inv ∧ doneA.ResultsSound ∧ doneA.awaitingReset = false ∧ doneA.fieldsTrusted = true :=
  ⟨doneA_inv, doneA_results, rfl, by decide⟩

theorem witness_FirstErrorIsKept :
    (∃ t, exec (.push 0x11#8) doneA = .next t) ∧ (∃ t, exec .clear doneA = .next t) ∧
    (∃ t, step { doneA with inputs := [.edge ⟨true, false, 0#16⟩] } = .next t) ∧
    decode 0x8000#16 = .illegal .reservedOp ∧ (∃ t, runWord 0x8000#16 doneA = .next t) :=
  ⟨⟨_, rfl⟩, ⟨_, rfl⟩, ⟨_, rfl⟩, by decide, ⟨_, rfl⟩⟩

theorem witness_ErrorsChangeNothingElse :
    errorOf (.push 0x11#8) doneA ≠ 0#3 ∧ errorOf (.startR 10#4) doneA ≠ 0#3 ∧ errorOf (.startR 0#4) doneA ≠ 0#3 ∧
    errorOf (.read 8#4) doneA ≠ 0#3 ∧ errorOf (.rdbuf 9#4) doneA ≠ 0#3 ∧ decode 0x0001#16 = .illegal .operandOfNone := by decide

theorem witness_ErrorStaysUntilClearOrReset :
    (nextOf (step (presenting { doneA with errCode := 2#3 } 0x1000#16))).map (·.errCode) = some 0#3 ∧
    (presenting { doneA with errCode := 2#3 } 0x1000#16).errCode ≠ 0#3 := by decide

theorem witness_FlagsDecideNothing :
    (Instr.push 0x7E#8 ≠ .read 0#4) ∧ ∃ t, exec (.push 0x7E#8) beforeFinalA = .next t := ⟨by decide, ⟨_, rfl⟩⟩

/-- A rise and a fall of each output: the final PUSH, START.M in DONE, an illegal word, CLEAR. -/
theorem witness_OutputsRiseAndFall :
    (beforeFinalA.outputs.resValidO = false ∧
      (nextOf (step (presenting beforeFinalA 0x407E#16))).map (·.outputs.resValidO) = some true) ∧
    (doneA.outputs.resValidO = true ∧ (nextOf (step (presenting doneA 0x2000#16))).map (·.outputs.resValidO) = some false ∧
      (nextOf (step (presenting doneA 0x3100#16))).map (·.outputs.resValidO) = some false) ∧
    (doneA.outputs.errO = false ∧ (nextOf (step (presenting doneA 0x8000#16))).map (·.outputs.errO) = some true) ∧
    (({ doneA with errCode := 1#3 } : State).outputs.errO = true ∧
      (nextOf (step (presenting { doneA with errCode := 1#3 } 0x1000#16))).map (·.outputs.errO) = some false) ∧
    (presenting doneA 0x8000#16).nextInput ≠ .powerCycle := by decide

theorem witness_BufferWriters :
    Memory.wf beforeFinalA.buf = true ∧ (∃ t, exec (.push 0x7E#8) beforeFinalA = .next t) ∧ (∃ t, exec .clear doneA = .next t) :=
  ⟨by decide, ⟨_, rfl⟩, ⟨_, rfl⟩⟩

theorem witness_FieldRegisterWriters :
    (∃ t, exec (.push 0x7E#8) beforeFinalA = .next t) ∧ beforeFinalA.phase = .collect ∧ beforeFinalA.finalByte ∧
    beforeFinalA.kind = .meas ∧ beforeFinalA.sum = 0x7E#8 ∧ beforeFinalA.sum ≠ 0x7F#8 ∧ Memory.wf beforeFinalA.buf = true ∧
    ∃ t, exec (.push 0x7F#8) beforeFinalA = .next t :=
  ⟨⟨_, rfl⟩, rfl, beforeFinalA_final, rfl, rfl, by decide, by decide, ⟨_, rfl⟩⟩

theorem witness_ResultRegisterWriters :
    (∃ t, exec .startM doneA = .next t) ∧ Instr.startM ≠ .clear ∧
    ¬ (∃ d, Instr.startM = .push d ∧ doneA.phase = .collect ∧ doneA.finalByte) :=
  ⟨⟨_, rfl⟩, by decide, nofun⟩

theorem witness_RdataWriters :
    (∃ t, runWord 0x2000#16 doneA = .next t) ∧ (∀ r, decode 0x2000#16 ≠ .legal (.read r)) ∧
    (∀ a, decode 0x2000#16 ≠ .legal (.rdbuf a)) ∧ decode 0x2000#16 ≠ .legal .clear ∧
    (∃ t, step { doneA with inputs := [.edge ⟨true, false, 0#16⟩] } = .next t) :=
  ⟨⟨_, rfl⟩, by decide, by decide, by decide, ⟨_, rfl⟩⟩

theorem witness_ParserStateWriters :
    (∃ t, exec (.push 0x11#8) doneA = .next t) ∧ Instr.push 0x11#8 ≠ .clear ∧ Instr.push 0x11#8 ≠ .startM ∧
    (∀ n, Instr.push 0x11#8 = .startR n → errorOf (.push 0x11#8) doneA ≠ 0#3) ∧
    (∀ d, Instr.push 0x11#8 = .push d → doneA.phase ≠ .collect) ∧ errorOf (.startR 10#4) doneA ≠ 0#3 :=
  ⟨⟨_, rfl⟩, by decide, by decide, nofun, fun _ _ => by decide, by decide⟩

theorem witness_EveryStepKeepsInvariant :
    (presenting doneA 0x1000#16).Inv ∧ (∃ t, step (presenting doneA 0x1000#16) = .next t ∧ t.phase = .idle) ∧
    (presenting doneA 0x1000#16).phase ≠ .idle :=
  ⟨presenting_inv _ doneA_inv, ⟨_, rfl, rfl⟩, by decide⟩

theorem witness_EveryStepKeepsResultsSound :
    (presenting beforeFinalA 0x407E#16).Inv ∧ (presenting beforeFinalA 0x407E#16).ResultsSound ∧
    ∃ t, step (presenting beforeFinalA 0x407E#16) = .next t :=
  ⟨presenting_inv _ beforeFinalA_inv, nofun, ⟨_, rfl⟩⟩

/-- Before the first reset, with an edge that presents no command; and after it, with one that does. -/
theorem witness_StepStopsOnlyBeforeReset :
    (({ State.reset with awaitingReset := true } : State).Inv ∧ ({ State.reset with awaitingReset := true } : State).resetFirst) ∧
    (presenting beforeFinalA 0x407E#16).Inv ∧ (presenting beforeFinalA 0x407E#16).resetFirst :=
  ⟨⟨⟨rfl, nofun⟩, fun _ p h => .inr (by cases h; rfl)⟩, presenting_inv _ beforeFinalA_inv, nofun⟩

theorem witness_NoRunStopsAfterReset :
    (presenting beforeFinalA 0x407E#16).Inv ∧ (presenting beforeFinalA 0x407E#16).awaitingReset = false ∧
    .powerCycle ∉ (presenting beforeFinalA 0x407E#16).inputs := ⟨presenting_inv _ beforeFinalA_inv, rfl, by decide⟩

end Sys2Proof.Tests
end

section
/-! PROOFS. The state's family (10_state.md): what one command can do as an inductive case split, what each operation does to the
invariant of R40, and the statements O1, O2, O34, O37, O38 and O40 to O45. -/

namespace Sys2Proof.Machine

/-! ### What one command can do -/

/-- Every effect a command can have, one constructor for each way of going on (40_control.md, 41_frame.md, 42_readout.md):
`exec_cases` and `execPush_cases` as one inversion with named cases. -/
inductive CommandEffect (s : State) : Instr → State → Prop
  | nop : CommandEffect s .nop s
  | clear : CommandEffect s .clear s.clearElements
  | startM : CommandEffect s .startM (s.startFrame .meas 9#4)
  | startR (n : Nibble) (hlen : rawLenOk n = true) : CommandEffect s (.startR n) (s.startFrame .raw n)
  | badLen (n : Nibble) (hlen : rawLenOk n = false) : CommandEffect s (.startR n) (s.recordErr .badLen)
  | pushIdle (d : Byte) (hphase : s.phase ≠ .collect) : CommandEffect s (.push d) (s.recordErr .pushIdle)
  | pushMore (d : Byte) (hphase : s.phase = .collect) (hidx : s.idx.toNat < 9) (hmore : s.idx.toNat + 1 < s.len.toNat) :
      CommandEffect s (.push d)
        { s with buf := Memory.write s.buf s.idx.toNat d, sum := s.sum + d, idx := s.idx + 1#4 }
  | pushFinal (d : Byte) (hphase : s.phase = .collect) (hidx : s.idx.toNat < 9) (hfinal : s.finalByte) :
      CommandEffect s (.push d) ({ s with buf := Memory.write s.buf s.idx.toNat d, idx := s.len }.complete d)
  | read (r : Nibble) : CommandEffect s (.read r) (s.readOut (s.selectorValue r))
  | rdbuf (a : Nibble) : CommandEffect s (.rdbuf a) (s.readOut (s.bufferValue a))

theorem CommandEffect.of_exec {i : Instr} {s t : State} (h : exec i s = .next t) : CommandEffect s i t := by
  rcases exec_cases h with ⟨rfl, rfl⟩ | ⟨rfl, rfl⟩ | ⟨rfl, rfl⟩ | ⟨n, rfl, hlen, rfl⟩ | ⟨n, rfl, hlen, rfl⟩ | ⟨d, rfl, hd⟩ |
    ⟨r, rfl, rfl⟩ | ⟨a, rfl, rfl⟩
  · exact .nop
  · exact .clear
  · exact .startM
  · exact .startR n hlen
  · exact .badLen n hlen
  · rcases execPush_cases hd with ⟨hp, rfl⟩ | ⟨hp, hi, hm, rfl⟩ | ⟨hp, hi, hf, rfl⟩
    · exact .pushIdle d hp
    · exact .pushMore d hp hi hm
    · exact .pushFinal d hp hi hf
  · exact .read r
  · exact .rdbuf a

/-- No effect is listed that the command does not have. -/
theorem exec_eq_next_iff {i : Instr} {s t : State} : exec i s = .next t ↔ CommandEffect s i t := by
  refine ⟨.of_exec, fun h => ?_⟩
  cases h with
  | nop | clear | startM | read | rdbuf => rfl
  | startR n hlen | badLen n hlen => simp [exec, execStartR, hlen]
  | pushIdle d hp => exact execPush_idle hp
  | pushMore d hp hi hm => exact execPush_more hp hi hm
  | pushFinal d hp hi hf => exact execPush_final hp hi hf

/-- A word runs its command, or records ILLEGAL (40_control.md R100). -/
theorem runWord_cases {w : Word} {s t : State} (h : runWord w s = .next t) :
    (∃ i, decode w = .legal i ∧ exec i s = .next t) ∨ (∃ why, decode w = .illegal why ∧ t = s.recordErr .illegal) := by
  unfold runWord at h
  split at h
  · next i hd => exact .inl ⟨i, hd, h⟩
  · next why hd => cases h; exact .inr ⟨why, hd, rfl⟩

/-- An edge with `rst` = 1 resets, whatever command is presented (70_reset_and_hazards.md R210). -/
theorem step_of_rst {s : State} {p : Pins} (hin : s.nextInput = .edge p) (hrst : p.rst = true) :
    step s = .next s.dropInput.resetEdge := by
  simp [step, hin, applyInput, clockEdge, hrst]

theorem eq_resetEdge_of_step {s t : State} {p : Pins} (h : step s = .next t) (hin : s.nextInput = .edge p)
    (hrst : p.rst = true) : t = s.dropInput.resetEdge := by
  rw [step_of_rst hin hrst] at h
  cases h; rfl

theorem State.nextInput_of_inputs {s : State} {i : HostInput} {rest : List HostInput} (h : s.inputs = i :: rest) :
    s.nextInput = i := by
  simp [State.nextInput, h]

/-! ### Reset values (10_state.md R44) -/

theorem State.clearElements_atResetValues (s : State) : s.clearElements.AtResetValues := by
  constructor <;> simp [Memory.read_nil]

theorem State.resetEdge_atResetValues (s : State) : s.resetEdge.AtResetValues := by
  constructor <;> simp [Memory.read_nil]

/-- TEMPC follows TEMPRAW, so it is the one selector that is not 0 at the reset values (10_state.md R44, 42_readout.md R164). -/
theorem exec_read_tempc_of_atResetValues {s : State} (h : s.AtResetValues) :
    exec (.read 4#4) s = .next { s with rdata := 0xFF00#16 } := by
  obtain ⟨-, -, -, ⟨-, -, -, -, htemp⟩, -⟩ := h
  have hcelsius : celsius 0x0000#16 = 0xFF00#16 := by decide
  have hvalue : s.selectorValue 4#4 = some 0xFF00#16 :=
    calc s.selectorValue 4#4 = some (celsius s.tempRaw) := rfl
      _ = some 0xFF00#16 := by rw [htemp, hcelsius]
  simp [exec, execRead, hvalue, State.readOut, State.setRdata]

/-- Settles O2: each of the three ways leaves `clearElements` or `resetEdge`. -/
theorem resetAndClearLeaveResetValues : Obligations.ResetAndClearLeaveResetValues :=
  ⟨State.reset.clearElements_atResetValues,
    fun s _ _ hin hrst => ⟨_, step_of_rst (State.nextInput_of_inputs hin) hrst, s.dropInput.resetEdge_atResetValues⟩,
    fun s => ⟨_, rfl, s.clearElements_atResetValues⟩,
    fun _ => exec_read_tempc_of_atResetValues⟩

/-! ### The error register (10_state.md R37, 60_exceptions.md R180, R181) -/

theorem errorOf_startR (n : Nibble) (s : State) : errorOf (.startR n) s = if rawLenOk n = true then 0#3 else 3#3 := by
  have hbad : (n.toNat = 0 ∨ 10 ≤ n.toNat) ↔ ¬ rawLenOk n = true := by rw [rawLenOk_iff]; omega
  simp only [errorOf, hbad, ite_not]

theorem errorOf_read (r : Nibble) (s : State) :
    errorOf (.read r) s = if (s.selectorValue r).isNone = true then 4#3 else 0#3 := by
  simp only [errorOf, State.selectorValue_isNone]

theorem errorOf_rdbuf (a : Nibble) (s : State) :
    errorOf (.rdbuf a) s = if (s.bufferValue a).isNone = true then 4#3 else 0#3 := by
  simp only [errorOf, State.bufferValue_isNone]

/-- The end of READ and RDBUF records BAD_SEL exactly where there is no value. -/
theorem State.readOut_errCode (s : State) (v : Option Word) :
    (s.readOut v).errCode = firstError s.errCode (if v.isNone = true then 4#3 else 0#3) := by
  cases v with
  | some w => exact (firstError_none _).symm
  | none => rfl

/-- Every command but CLEAR records its error condition, if it has one. -/
theorem CommandEffect.errCode_eq {i : Instr} {s t : State} (h : CommandEffect s i t) (hi : i ≠ .clear) :
    t.errCode = firstError s.errCode (errorOf i s) := by
  cases h with
  | clear => exact absurd rfl hi
  | nop | startM => exact (firstError_none _).symm
  | startR n hlen => simp [errorOf_startR, hlen]
  | badLen n hlen => simp [errorOf_startR, hlen, HostError.code]
  | pushIdle d hp => simp [errorOf, hp, HostError.code]
  | pushMore d hp => simp [errorOf, hp]
  | pushFinal d hp => simp [errorOf, hp, State.complete_frame]
  | read r => rw [State.readOut_errCode, errorOf_read]
  | rdbuf a => rw [State.readOut_errCode, errorOf_rdbuf]

/-- Settles O34: `firstError` written out, command by command. -/
theorem firstErrorIsKept : Obligations.FirstErrorIsKept := by
  refine ⟨fun i s t h hi => (CommandEffect.of_exec h).errCode_eq hi, fun s t h => ?_, fun s t p h hin hrst => ?_,
    fun w s t why hd h => ?_⟩
  · cases h; rfl
  · rw [eq_resetEdge_of_step h hin hrst, State.resetEdge_errCode]
  · rcases runWord_cases h with ⟨i, hd', -⟩ | ⟨-, -, rfl⟩
    · rw [hd] at hd'; cases hd'
    · rfl

/-! ### Outputs and `rdata` (10_state.md R38, R39) -/

/-- Settles O38: `err_o` is `err_code` held against 0, the other two are the registers themselves. -/
theorem outputsFollowState : Obligations.OutputsFollowState :=
  fun s => ⟨rfl, rfl, by simp [State.outputs]⟩

theorem CommandEffect.rdata_eq {i : Instr} {s t : State} (h : CommandEffect s i t) (hclear : i ≠ .clear)
    (hread : ∀ r, i ≠ .read r) (hrdbuf : ∀ a, i ≠ .rdbuf a) : t.rdata = s.rdata := by
  cases h with
  | clear => exact absurd rfl hclear
  | read r => exact absurd rfl (hread r)
  | rdbuf a => exact absurd rfl (hrdbuf a)
  | nop | startM | startR | badLen | pushIdle | pushMore => rfl
  | pushFinal => simp [State.complete_frame]

/-- Settles O43: a word that leaves `rdata` is an illegal one or one of the four commands of `CommandEffect.rdata_eq`. -/
theorem rdataWriters : Obligations.RdataWriters := by
  refine ⟨fun _ => rfl, fun w s t h hread hrdbuf hclear => ?_, fun s t h => ?_, fun s t p h hin hrst => ?_⟩
  · rcases runWord_cases h with ⟨i, hd, hexec⟩ | ⟨-, -, rfl⟩
    · rw [hd] at hread hrdbuf hclear
      exact (CommandEffect.of_exec hexec).rdata_eq (fun e => hclear (congrArg _ e)) (fun r e => hread r (congrArg _ e))
        (fun a e => hrdbuf a (congrArg _ e))
    · rfl
  · cases h; rfl
  · rw [eq_resetEdge_of_step h hin hrst, State.resetEdge_rdata]

/-! ### The frame buffer (10_state.md R28) -/

/-- The buffer after a PUSH's byte write is the spec's `buf'` (41_frame.md R120). -/
theorem State.read_write_pushed {s : State} (hwf : Memory.wf s.buf = true) (d : Byte) (a : Nat) :
    Memory.read (Memory.write s.buf s.idx.toNat d) a = s.pushedBytes d a :=
  Memory.read_write hwf s.idx.toNat a d

theorem State.readOut_buf (s : State) (v : Option Word) : (s.readOut v).buf = s.buf := by rw [State.readOut_eq]

/-- A command leaves the buffer, empties it, or is an accepted PUSH. -/
theorem CommandEffect.buf_cases {i : Instr} {s t : State} (h : CommandEffect s i t) :
    (i = .clear ∧ t.buf = []) ∨
    (∃ d, i = .push d ∧ s.phase = .collect ∧ s.idx.toNat < 9 ∧ t.buf = Memory.write s.buf s.idx.toNat d) ∨
    (i ≠ .clear ∧ (∀ d, i = .push d → s.phase ≠ .collect) ∧ t.buf = s.buf) := by
  cases h with
  | clear => exact .inl ⟨rfl, rfl⟩
  | pushMore d hp hidx => exact .inr (.inl ⟨d, rfl, hp, hidx, rfl⟩)
  | pushFinal d hp hidx => exact .inr (.inl ⟨d, rfl, hp, hidx, by simp [State.complete_frame]⟩)
  | pushIdle d hp => exact .inr (.inr ⟨nofun, fun _ _ => hp, rfl⟩)
  | nop | startM | startR | badLen => exact .inr (.inr ⟨nofun, nofun, rfl⟩)
  | read | rdbuf => exact .inr (.inr ⟨nofun, nofun, State.readOut_buf _ _⟩)

theorem CommandEffect.buf_wf {i : Instr} {s t : State} (h : CommandEffect s i t) (hwf : Memory.wf s.buf = true) :
    Memory.wf t.buf = true := by
  rcases h.buf_cases with ⟨-, hbuf⟩ | ⟨d, -, -, hidx, hbuf⟩ | ⟨-, -, hbuf⟩
  · rw [hbuf]; rfl
  · rw [hbuf]; exact Memory.write_wf hwf d hidx
  · rwa [hbuf]

/-- Settles O40: the three cases of `CommandEffect.buf_cases`, read byte by byte. -/
theorem bufferWriters : Obligations.BufferWriters := by
  intro i s t hwf hexec
  have heffect := CommandEffect.of_exec hexec
  refine ⟨fun a ha => Memory.read_outside (heffect.buf_wf hwf) ha, fun a => ?_⟩
  rcases heffect.buf_cases with ⟨rfl, hbuf⟩ | ⟨d, rfl, hp, -, hbuf⟩ | ⟨hclear, hpush, hbuf⟩
  · rw [hbuf, Memory.read_nil]
  · rw [hbuf, Memory.read_write hwf]; simp [hp]
  · rw [hbuf]
    cases i with
    | clear => exact absurd rfl hclear
    | push d => simp [hpush d rfl]
    | nop | startM | startR | read | rdbuf => rfl

/-! ### The result registers (10_state.md R29 to R36) -/

theorem State.complete_fields_of_match {s : State} {d : Byte} (hk : s.kind = .meas) (hm : s.sum = d) :
    (s.complete d).dist = s.frameDistance ∧ (s.complete d).strength = s.frameStrength ∧
    (s.complete d).tempRaw = s.frameTempRaw := by
  simp [State.complete_meas d hk, hm]

theorem State.complete_fields_kept {s : State} {d : Byte} (h : ¬ (s.kind = .meas ∧ s.sum = d)) :
    (s.complete d).dist = s.dist ∧ (s.complete d).strength = s.strength ∧ (s.complete d).tempRaw = s.tempRaw := by
  cases hk : s.kind with
  | meas =>
    have hm : s.sum ≠ d := fun e => h ⟨hk, e⟩
    simp [State.complete_meas d hk, hm]
  | raw => simp [State.complete_raw d hk]

/-- What only CLEAR and a completion write. -/
theorem CommandEffect.results_eq {i : Instr} {s t : State} (h : CommandEffect s i t) (hclear : i ≠ .clear)
    (hfinal : ¬ ∃ d, i = .push d ∧ s.phase = .collect ∧ s.finalByte) :
    t.status = s.status ∧ t.ok = s.ok ∧ t.ckOk = s.ckOk ∧ t.hdrOk = s.hdrOk ∧ t.resKind = s.resKind ∧
    t.ckCalc = s.ckCalc ∧ t.ckRecv = s.ckRecv ∧ t.dist = s.dist ∧ t.strength = s.strength ∧ t.tempRaw = s.tempRaw ∧
    (t.resValid = s.resValid ∨ (t.resValid = false ∧ (i = .startM ∨ ∃ n, i = .startR n))) := by
  cases h with
  | clear => exact absurd rfl hclear
  | pushFinal d hp _ hf => exact absurd ⟨d, rfl, hp, hf⟩ hfinal
  | nop | startM | startR | badLen | pushIdle | pushMore => simp
  | read | rdbuf => simp [State.readOut_eq]

/-- Settles O42 by `CommandEffect.results_eq`. -/
theorem resultRegisterWriters : Obligations.ResultRegisterWriters :=
  fun _ _ _ hexec => (CommandEffect.of_exec hexec).results_eq

/-- A PUSH in COLLECT of a frame's final byte completes the frame (41_frame.md R120). -/
theorem CommandEffect.eq_complete {d : Byte} {s t : State} (h : CommandEffect s (.push d) t) (hp : s.phase = .collect)
    (hf : s.finalByte) : t = { s with buf := Memory.write s.buf s.idx.toNat d, idx := s.len }.complete d := by
  cases h with
  | pushIdle _ hidle => exact absurd hp hidle
  | pushMore _ _ _ hmore => exact absurd hmore hf
  | pushFinal => rfl

/-- Settles O41: a completion by `State.complete_fields_of_match` or `State.complete_fields_kept`, every other command by
`CommandEffect.results_eq`. -/
theorem fieldRegisterWriters : Obligations.FieldRegisterWriters := by
  intro i s t hwf hexec
  have heffect := CommandEffect.of_exec hexec
  refine ⟨?_, ?_, fun hclear hkeep => ?_⟩
  · rintro rfl
    cases heffect
    simp
  · rintro d rfl hp hf hk hm
    rw [heffect.eq_complete hp hf]
    simpa only [State.frameDistance, State.frameStrength, State.frameTempRaw, le16, State.read_write_pushed hwf] using
      State.complete_fields_of_match (s := { s with buf := Memory.write s.buf s.idx.toNat d, idx := s.len }) hk hm
  · by_cases hfinal : ∃ d, i = .push d ∧ s.phase = .collect ∧ s.finalByte
    · obtain ⟨d, rfl, hp, hf⟩ := hfinal
      rw [heffect.eq_complete hp hf]
      exact State.complete_fields_kept fun ⟨hk, hm⟩ => hkeep ⟨d, rfl, hp, hf, hk, hm⟩
    · obtain ⟨-, -, -, -, -, -, -, hdist, hstrength, htemp, -⟩ := heffect.results_eq hclear hfinal
      exact ⟨hdist, hstrength, htemp⟩

/-! ### The parser's state (10_state.md R23 to R27) -/

/-- Settles O44 by what each command does; the hypotheses exclude CLEAR and an accepted START. -/
theorem parserStateWriters : Obligations.ParserStateWriters := by
  intro i s t hexec hclear hstartM hstartR
  cases CommandEffect.of_exec hexec with
  | clear => exact absurd rfl hclear
  | startM => exact absurd rfl hstartM
  | startR n hlen => exact absurd (by simp [errorOf_startR, hlen]) (hstartR n rfl)
  | nop | badLen | pushIdle => exact ⟨rfl, rfl, fun _ => ⟨rfl, rfl, rfl⟩⟩
  | pushMore d hp => exact ⟨rfl, rfl, fun hpush => absurd hp (hpush d rfl)⟩
  | pushFinal d hp =>
    obtain ⟨-, -, -, -, -, -, hkind, hlen, -⟩ :=
      State.complete_frame { s with buf := Memory.write s.buf s.idx.toNat d, idx := s.len } d
    exact ⟨hkind, hlen, fun hpush => absurd hp (hpush d rfl)⟩
  | read | rdbuf => simp [State.readOut_eq]

/-! ### Flags decide nothing (10_state.md R41, 60_exceptions.md R185) -/

/-- The state with its five flags and recorded error replaced. -/
def State.withFlags (s : State) (ok ckOk hdrOk resValid : Bool) (e : BitVec 3) : State :=
  { s with ok := ok, ckOk := ckOk, hdrOk := hdrOk, resValid := resValid, errCode := e }

/-- The two states differ in nothing but `ok`, `ck_ok`, `hdr_ok`, `res_valid` and `err_code`. -/
def State.SameButFlags (t t' : State) : Prop := t' = t.withFlags t'.ok t'.ckOk t'.hdrOk t'.resValid t'.errCode

section withFlags
variable (s : State) (ok ckOk hdrOk resValid : Bool) (e : BitVec 3)

theorem State.selectorValue_withFlags {r : Nibble} (hr : r ≠ 0#4) :
    (s.withFlags ok ckOk hdrOk resValid e).selectorValue r = s.selectorValue r := by
  have hr' : r.toNat ≠ 0 := fun h => hr (BitVec.eq_of_toNat_eq h)
  unfold State.selectorValue
  split
  · next h => exact absurd h hr'
  all_goals rfl

theorem State.readOut_withFlags (v : Option Word) :
    (s.readOut v).SameButFlags ((s.withFlags ok ckOk hdrOk resValid e).readOut v) := by
  cases v <;> rfl

theorem State.complete_withFlags (d : Byte) :
    (s.complete d).SameButFlags ((s.withFlags ok ckOk hdrOk resValid e).complete d) := by
  cases hk : s.kind with
  | meas =>
    rw [State.complete_meas d hk, State.complete_meas (s := s.withFlags ok ckOk hdrOk resValid e) d hk]; rfl
  | raw =>
    rw [State.complete_raw d hk, State.complete_raw (s := s.withFlags ok ckOk hdrOk resValid e) d hk]; rfl

/-- A command has the same effect whatever the flags are, but on the flags. -/
theorem CommandEffect.withFlags {i : Instr} {s t : State} (h : CommandEffect s i t) (hi : i ≠ .read 0#4) :
    ∃ t', CommandEffect (s.withFlags ok ckOk hdrOk resValid e) i t' ∧ t.SameButFlags t' := by
  cases h with
  | nop => exact ⟨_, .nop, rfl⟩
  | clear => exact ⟨_, .clear, rfl⟩
  | startM => exact ⟨_, .startM, rfl⟩
  | startR n hlen => exact ⟨_, .startR n hlen, rfl⟩
  | badLen n hlen => exact ⟨_, .badLen n hlen, rfl⟩
  | pushIdle d hp => exact ⟨_, .pushIdle d hp, rfl⟩
  | pushMore d hp hidx hmore => exact ⟨_, .pushMore d hp hidx hmore, rfl⟩
  | pushFinal d hp hidx hf => exact ⟨_, .pushFinal d hp hidx hf, State.complete_withFlags _ ok ckOk hdrOk resValid e d⟩
  | read r =>
    have hr : r ≠ 0#4 := fun h => hi (congrArg _ h)
    exact ⟨_, .read r, by rw [State.selectorValue_withFlags _ _ _ _ _ _ hr]; exact State.readOut_withFlags ..⟩
  | rdbuf a => exact ⟨_, .rdbuf a, State.readOut_withFlags ..⟩

end withFlags

/-- Settles O37: the effect of the command from the other flags is one that `exec` has. -/
theorem flagsDecideNothing : Obligations.FlagsDecideNothing := by
  intro i s t ok ckOk hdrOk resValid e hi hexec
  obtain ⟨t', heffect, hsame⟩ := (CommandEffect.of_exec hexec).withFlags ok ckOk hdrOk resValid e hi
  exact ⟨t', exec_eq_next_iff.mpr heffect, hsame⟩

/-! ### The spec's invariant (10_state.md R40) -/

theorem sumFirst_congr {b b' : Nat → Byte} {k : Nat} (h : ∀ a < k, b a = b' a) : sumFirst b k = sumFirst b' k := by
  induction k with
  | zero => rfl
  | succ k ih => rw [sumFirst, sumFirst, ih fun a ha => h a (by omega), h k (by omega)]

/-- The running sum takes in the byte that PUSH writes (41_frame.md R120, R121). -/
theorem sumFirst_pushedBytes (s : State) (d : Byte) :
    sumFirst (s.pushedBytes d) (s.idx.toNat + 1) = sumFirst s.bytes s.idx.toNat + d := by
  have hbelow : sumFirst (s.pushedBytes d) s.idx.toNat = sumFirst s.bytes s.idx.toNat :=
    sumFirst_congr fun a ha => if_neg (by omega)
  rw [sumFirst, hbelow, State.pushedBytes, if_pos rfl]

theorem firstError_le {r : BitVec 3} (hr : r.toNat ≤ 4) (e : HostError) : (firstError r e.code).toNat ≤ 4 := by
  unfold firstError
  split
  · cases e <;> decide
  · exact hr

theorem StatusCode.statusReachable_code {c : StatusCode}
    (h : c = .ready ∨ c = .checksum ∨ c = .weak ∨ c = .strong ∨ c = .flood) : statusReachable c.code := by
  rcases h with rfl | rfl | rfl | rfl | rfl <;> simp [statusReachable, StatusCode.code]

theorem State.AtResetValues.reachableForm {s : State} (h : s.AtResetValues) : s.ReachableForm := by
  obtain ⟨⟨hphase, -, hlen, hidx, hsum⟩, -, ⟨hstatus, -, -, -, hvalid, -⟩, -, ⟨herr, -⟩⟩ := h
  constructor <;> simp [*, statusReachable]

/-- What a read, an error and the passing of an input change is not in R40, but for the range of `err_code`. -/
theorem State.ReachableForm.with_readout {s : State} (h : s.ReachableForm) (v : Word) {e : BitVec 3} (he : e.toNat ≤ 4)
    (inputs : List HostInput) : { s with rdata := v, errCode := e, inputs := inputs }.ReachableForm :=
  { h with errLegal := he }

theorem State.ReachableForm.dropInput {s : State} (h : s.ReachableForm) : s.dropInput.ReachableForm :=
  h.with_readout s.rdata h.errLegal _

theorem State.ReachableForm.recordErr {s : State} (h : s.ReachableForm) (e : HostError) : (s.recordErr e).ReachableForm :=
  h.with_readout s.rdata (firstError_le h.errLegal e) s.inputs

theorem State.ReachableForm.readOut {s : State} (h : s.ReachableForm) (v : Option Word) : (s.readOut v).ReachableForm := by
  cases v with
  | some w => exact h.with_readout w h.errLegal s.inputs
  | none => exact h.with_readout 0x0000#16 (firstError_le h.errLegal .badSel) s.inputs

/-- START starts a frame of a legal length, no byte of which is summed yet (40_control.md R103, R104). -/
theorem State.ReachableForm.startFrame {s : State} (h : s.ReachableForm) {k : FrameKind} {n : Nibble}
    (hn : 1 ≤ n.toNat ∧ n.toNat ≤ 9) (hmeas : k = .meas → n = 9#4) : (s.startFrame k n).ReachableForm where
  idle := nofun
  collect _ := ⟨hn.1, hn.2, hn.1, rfl, rfl⟩
  done := nofun
  measLen hk _ := hmeas hk
  phaseLegal := nofun
  statusLegal := h.statusLegal
  errLegal := h.errLegal
  validDone := nofun

/-- A non-final PUSH stays in COLLECT with its byte summed (41_frame.md R120). -/
theorem State.ReachableForm.pushMore {s : State} (h : s.ReachableForm) (hwf : Memory.wf s.buf = true) (d : Byte)
    (hp : s.phase = .collect) (hmore : s.idx.toNat + 1 < s.len.toNat) :
    { s with buf := Memory.write s.buf s.idx.toNat d, sum := s.sum + d, idx := s.idx + 1#4 }.ReachableForm := by
  obtain ⟨hlo, hhi, hlt, hvalid, hsum⟩ := h.collect hp
  have hidx : (s.idx + 1#4).toNat = s.idx.toNat + 1 := by
    rw [BitVec.toNat_add]; exact Nat.mod_eq_of_lt (show s.idx.toNat + 1 < 16 by omega)
  have hbytes : Memory.read (Memory.write s.buf s.idx.toNat d) = s.pushedBytes d :=
    funext (State.read_write_pushed hwf d)
  have hsum' : s.sum + d = sumFirst (Memory.read (Memory.write s.buf s.idx.toNat d)) (s.idx + 1#4).toNat := by
    rw [hidx, hbytes, sumFirst_pushedBytes, hsum]
  exact
    { h with
      idle := fun hidle => absurd (hp.symm.trans hidle) nofun
      collect := fun _ => ⟨hlo, hhi, hidx.trans_lt hmore, hvalid, hsum'⟩
      done := fun hdone => absurd (hp.symm.trans hdone) nofun }

/-- The final PUSH enters DONE, `idx` at the frame's length and the running sum latched (41_frame.md R120, R124). -/
theorem State.ReachableForm.pushFinal {s : State} (h : s.ReachableForm) (d : Byte) (hp : s.phase = .collect) (m : Memory) :
    ({ s with buf := m, idx := s.len }.complete d).ReachableForm := by
  obtain ⟨hlo, hhi, -, -, -⟩ := h.collect hp
  obtain ⟨hphase, hvalid, -, hcalc, -, -, hkind, hlen, hidx, hsum, -, herr, -⟩ :=
    State.complete_frame { s with buf := m, idx := s.len } d
  obtain ⟨c, hstatus, -, hc⟩ := State.complete_status { s with buf := m, idx := s.len } d
  constructor
  case idle | collect | phaseLegal => simp [hphase]
  case done => exact fun _ => ⟨by rwa [hlen], by rwa [hlen], by rw [hidx, hlen], hvalid, by rw [hsum, hcalc]⟩
  case measLen => rw [hkind, hlen]; exact fun hk _ => h.measLen hk (by simp [hp])
  case statusLegal => rw [hstatus]; exact StatusCode.statusReachable_code hc
  case errLegal => rw [herr]; exact h.errLegal
  case validDone => exact fun _ => hphase

/-- Every command keeps the conditions of R40. -/
theorem CommandEffect.reachableForm {i : Instr} {s t : State} (h : CommandEffect s i t) (hwf : Memory.wf s.buf = true)
    (hform : s.ReachableForm) : t.ReachableForm := by
  cases h with
  | nop => exact hform
  | clear => exact s.clearElements_atResetValues.reachableForm
  | startM => exact hform.startFrame (by decide) fun _ => rfl
  | startR n hlen => exact hform.startFrame ((rawLenOk_iff n).mp hlen) nofun
  | badLen => exact hform.recordErr .badLen
  | pushIdle => exact hform.recordErr .pushIdle
  | pushMore d hp _ hmore => exact hform.pushMore hwf d hp hmore
  | pushFinal d hp => exact hform.pushFinal d hp _
  | read | rdbuf => exact hform.readOut _

theorem State.AtResetValues.inv {s : State} (h : s.AtResetValues) (hwf : Memory.wf s.buf = true) : s.Inv :=
  ⟨hwf, fun _ => h.reachableForm⟩

theorem State.reset_inv (inputs : List HostInput) : State.Inv { State.reset with inputs := inputs } :=
  State.AtResetValues.inv (State.clearElements_atResetValues { State.reset with inputs := inputs }) rfl

theorem State.Inv.dropInput {s : State} (h : s.Inv) : s.dropInput.Inv :=
  ⟨h.bufWf, fun hreset => (h.form hreset).dropInput⟩

/-- Every step keeps the invariant. -/
theorem step_inv {s t : State} (h : s.Inv) (hstep : step s = .next t) : t.Inv := by
  rcases step_cases hstep with ⟨-, -, -, rfl⟩ | ⟨-, i, -, -, -, hreset, -, hexec⟩ | ⟨-, -, -, -, -, hreset, -, rfl⟩ |
    ⟨-, -, -, -, rfl⟩ | ⟨-, rfl⟩
  · exact (State.resetEdge_atResetValues _).inv rfl
  · have heffect := CommandEffect.of_exec hexec
    exact ⟨heffect.buf_wf h.bufWf, fun _ => heffect.reachableForm h.bufWf (h.form hreset).dropInput⟩
  · exact ⟨h.bufWf, fun _ => (h.form hreset).dropInput.recordErr .illegal⟩
  · exact h.dropInput
  · exact ⟨State.powerUp_buf_wf _, nofun⟩

/-- CLEAR is the only command that enters IDLE (10_state.md R40). -/
theorem CommandEffect.eq_clear_of_enters_idle {i : Instr} {s t : State} (h : CommandEffect s i t) (hs : s.phase ≠ .idle)
    (ht : t.phase = .idle) : i = .clear := by
  cases h with
  | clear => rfl
  | startM | startR => simp at ht
  | nop | badLen | pushIdle | pushMore => exact absurd ht hs
  | pushFinal => simp [State.complete_frame] at ht
  | read | rdbuf => exact absurd (by simpa [State.readOut_eq] using ht) hs

theorem step_enters_idle {s t : State} (hstep : step s = .next t) (hs : s.phase ≠ .idle) (ht : t.phase = .idle) :
    s.nextInput = .powerCycle ∨
      ∃ p, s.nextInput = .edge p ∧ (p.rst = true ∨ (p.cmdValid = true ∧ decode p.cmd = .legal .clear)) := by
  rcases step_cases hstep with ⟨p, hin, hrst, -⟩ | ⟨p, i, hin, -, hvalid, -, hd, hexec⟩ | ⟨-, -, -, -, -, -, -, rfl⟩ |
    ⟨-, -, -, -, rfl⟩ | ⟨hin, -⟩
  · exact .inr ⟨p, hin, .inl hrst⟩
  · obtain rfl := (CommandEffect.of_exec hexec).eq_clear_of_enters_idle hs ht
    exact .inr ⟨p, hin, .inr ⟨hvalid, hd⟩⟩
  · exact absurd ht hs
  · exact absurd ht hs
  · exact .inl hin

/-- Settles O45: R40 holds at the reset values, each command keeps it (`CommandEffect.reachableForm`), and a step runs at most
one command. -/
theorem everyStepKeepsInvariant : Obligations.EveryStepKeepsInvariant :=
  ⟨State.reset_inv, fun _ _ => step_inv, fun _ _ => step_enters_idle⟩

/-- Settles O1: at reset no frame has completed, so there is no result to be wrong about. -/
theorem invariantHoldsAtReset : Obligations.InvariantHoldsAtReset :=
  ⟨State.reset_inv [], nofun⟩

end Sys2Proof.Machine
end

section
/-! PROOFS. The memory's family (20_memory.md): a read-out changes nothing that a read-out looks at, the trusted fields are those of
the frame in the buffer, and the statements O31, O33 and O18. -/

namespace Sys2Proof.Machine

/-! ### Reading again (20_memory.md R56) -/

theorem firstError_firstError (r c : BitVec 3) : firstError (firstError r c) c = firstError r c := by
  by_cases hr : r = 0#3
  · subst hr
    rw [firstError_zero]
    unfold firstError
    exact ite_self c
  · rw [firstError_of_ne c hr, firstError_of_ne c hr]

theorem State.readOut_readOut (s : State) (v : Option Word) : (s.readOut v).readOut v = s.readOut v := by
  cases v with
  | some w => rfl
  | none => simp [State.readOut_eq, firstError_firstError]

theorem State.selectorValue_setRdata (s : State) (w : Word) (r : Nibble) :
    (s.setRdata w).selectorValue r = s.selectorValue r := by
  unfold State.selectorValue
  split <;> rfl

/-- READ leaves the value it copied as it was: the STATUS word holds `err_code`, which READ writes only where its selector
has no value. -/
theorem State.selectorValue_readOut (s : State) (r : Nibble) :
    (s.readOut (s.selectorValue r)).selectorValue r = s.selectorValue r := by
  cases hv : s.selectorValue r with
  | some w => exact (s.selectorValue_setRdata w r).trans hv
  | none =>
    have hr : 8 ≤ r.toNat := (s.selectorValue_isNone r).mp (by rw [hv]; rfl)
    exact Option.isNone_iff_eq_none.mp ((State.selectorValue_isNone _ r).mpr hr)

theorem State.bufferValue_readOut (s : State) (v : Option Word) (a : Nibble) :
    (s.readOut v).bufferValue a = s.bufferValue a := by
  simp only [State.bufferValue, State.readOut_buf]

/-- Settles O31: the second command finds the value of the first (`State.selectorValue_readOut`, `State.bufferValue_readOut`), and
reading out the same value twice is reading it out once. -/
theorem readsAreIdempotent : Obligations.ReadsAreIdempotent := by
  rintro i s t (⟨r, rfl⟩ | ⟨a, rfl⟩) hexec
  · cases hexec
    simp only [exec, execRead, State.selectorValue_readOut, State.readOut_readOut]
  · cases hexec
    simp only [exec, execRdbuf, State.bufferValue_readOut, State.readOut_readOut]

/-! ### The field bytes (20_memory.md R52, R54) -/

theorem le16_low (lo hi : Byte) : (le16 lo hi).extractLsb' 0 8 = lo := BitVec.extractLsb'_append_eq_right

theorem le16_high (lo hi : Byte) : (le16 lo hi).extractLsb' 8 8 = hi := BitVec.extractLsb'_append_eq_left

theorem State.fieldsTrusted_iff (s : State) :
    s.fieldsTrusted = true ↔ s.resValid = true ∧ s.resKind = .meas ∧ s.ckOk = true := by
  simp [State.fieldsTrusted, and_assoc]

theorem decodeFrame_of_valid {b : Nat → Byte} (h : checksumValid b 9 = true) :
    (decodeFrame b).1 = some ⟨le16 (b 2) (b 3), le16 (b 4) (b 5), le16 (b 6) (b 7)⟩ := by
  simp [decodeFrame, h]

/-- A passing measurement frame stands in the buffer with the field registers decoded from it (10_state.md R36): its buffer is
the one the frame was collected in (20_memory.md R54). -/
theorem State.fields_of_trusted {s : State} (hinv : s.Inv) (hsound : s.ResultsSound) (hreset : s.awaitingReset = false)
    (htrust : s.fieldsTrusted = true) :
    s.dist = s.frameDistance ∧ s.strength = s.frameStrength ∧ s.tempRaw = s.frameTempRaw := by
  obtain ⟨hvalid, hresKind, hckOk⟩ := s.fieldsTrusted_iff.mp htrust
  have hform := hinv.form hreset
  have hdone : s.phase = .done := hform.validDone hvalid
  have hresults := hsound hreset hdone
  have hkind : s.kind = .meas := hresults.kindOf.symm.trans hresKind
  have hlen : s.len = 9#4 := hform.measLen hkind (by simp [hdone])
  have hpass : checksumValid s.bytes 9 = true :=
    calc checksumValid s.bytes 9 = checksumValid s.bytes s.len.toNat := by rw [hlen]; rfl
      _ = true := hresults.ckOkOf.symm.trans hckOk
  exact hresults.measFields hkind _ (decodeFrame_of_valid hpass)

theorem exec_rdbuf_of_le (s : State) {a : Nibble} (ha : a.toNat ≤ 8) :
    exec (.rdbuf a) s = .next { s with rdata := (Memory.read s.buf a.toNat).setWidth 16 } := by
  simp only [exec, execRdbuf, s.bufferValue_of_le ha, State.readOut, State.setRdata]

/-- RDBUF at the two addresses of a little-endian field returns its low and its high byte (20_memory.md R52). -/
theorem exec_rdbuf_field {s : State} {v : Word} {a b : Nibble} (ha : a.toNat ≤ 8) (hb : b.toNat ≤ 8)
    (hv : v = le16 (Memory.read s.buf a.toNat) (Memory.read s.buf b.toNat)) :
    exec (.rdbuf a) s = .next { s with rdata := (v.extractLsb' 0 8).setWidth 16 } ∧
    exec (.rdbuf b) s = .next { s with rdata := (v.extractLsb' 8 8).setWidth 16 } := by
  rw [hv, le16_low, le16_high]
  exact ⟨exec_rdbuf_of_le s ha, exec_rdbuf_of_le s hb⟩

/-- Settles O33: the trusted fields are those of the frame in the buffer (`State.fields_of_trusted`), and RDBUF reads each of
them byte by byte. -/
theorem bufferShowsFieldBytes : Obligations.BufferShowsFieldBytes := by
  intro s hinv hsound hreset htrust
  obtain ⟨hdist, hstrength, htemp⟩ := State.fields_of_trusted hinv hsound hreset htrust
  obtain ⟨h2, h3⟩ := exec_rdbuf_field (a := 2#4) (b := 3#4) (by decide) (by decide) hdist
  obtain ⟨h4, h5⟩ := exec_rdbuf_field (a := 4#4) (b := 5#4) (by decide) (by decide) hstrength
  obtain ⟨h6, h7⟩ := exec_rdbuf_field (a := 6#4) (b := 7#4) (by decide) (by decide) htemp
  exact ⟨h2, h3, h4, h5, h6, h7⟩

/-! ### The end of the buffer (20_memory.md R50) -/

/-- Settles O18: the byte write of PUSH has no address to write (`State.storeByte_of_ge`, by `execPush_outside`). -/
theorem pushOutsideBufferFaults : Obligations.PushOutsideBufferFaults :=
  fun _ _ => execPush_outside

end Sys2Proof.Machine
end

section
/-! PROOFS. The encoding's family (30_encoding.md): a word is its three fields, it decodes to the command whose fields it has, and
the statements O8 to O12. -/

namespace Sys2Proof

open Laws.EncodedFields (fieldsOf)

/-! ### A word is its three fields (30_encoding.md R70) -/

/-- The fields of a word: op, a, d, as `fieldsOf` lists a command's. -/
def wordFields (w : Word) : Nibble × Nibble × Byte := (opField w, aField w, dField w)

theorem wordFields_injective : Function.Injective wordFields := by
  intro v w h
  obtain ⟨hop, ha, hd⟩ : opField v = opField w ∧ aField v = aField w ∧ dField v = dField w := by
    simpa [wordFields] using h
  rw [word_eq_fields v, word_eq_fields w, hop, ha, hd]

theorem toNat_eq_fields (w : Word) :
    w.toNat = (opField w).toNat * 4096 + (aField w).toNat * 256 + (dField w).toNat := by
  have hlt := w.isLt
  simp only [opField, aField, dField, BitVec.extractLsb'_toNat, Nat.shiftRight_eq_div_pow]
  omega

theorem wordFields_encode (i : Instr) : wordFields (encode i) = fieldsOf i := by
  cases i with
  | nop => exact Laws.EncodedFields.nop
  | clear => exact Laws.EncodedFields.clear
  | startM => exact Laws.EncodedFields.startM
  | startR n => exact Laws.EncodedFields.startR n
  | push d => exact Laws.EncodedFields.push d
  | read r => exact Laws.EncodedFields.read r
  | rdbuf i => exact Laws.EncodedFields.rdbuf i

theorem encode_toNat (i : Instr) :
    (encode i).toNat = (fieldsOf i).1.toNat * 4096 + (fieldsOf i).2.1.toNat * 256 + (fieldsOf i).2.2.toNat := by
  rw [toNat_eq_fields, ← wordFields_encode]; rfl

/-! ### The opcode map (30_encoding.md R72, R73) -/

/-- The rows do not overlap (`opTable_disjoint`): two rows that accept a word agree on the bits both fix. -/
theorem opTable_unique {r q : OpRow} (hr : r ∈ opTable) (hq : q ∈ opTable) {w : Word}
    (hrw : r.accepts w = true) (hqw : q.accepts w = true) : r = q := by
  have : Std.Symm fun r q : OpRow => r.pattern &&& q.mask ≠ q.pattern &&& r.mask := ⟨fun _ _ h => h.symm⟩
  have hagree : r.pattern &&& q.mask = q.pattern &&& r.mask := by
    rw [← eq_of_beq hrw, ← eq_of_beq hqw, BitVec.and_assoc, BitVec.and_assoc, BitVec.and_comm r.mask]
  by_contra hne
  exact opTable_disjoint.forall hr hq hne hagree

/-- A word decodes to what the row that accepts it builds. -/
theorem decode_eq_legal_iff_row {w : Word} {i : Instr} :
    decode w = .legal i ↔ ∃ row ∈ opTable, row.accepts w = true ∧ row.build w = i := by
  unfold decode
  cases hfind : opTable.find? (fun row => row.accepts w) with
  | none =>
    have hnone : ∀ row ∈ opTable, ¬ row.accepts w = true := List.find?_eq_none.mp hfind
    refine ⟨nofun, ?_⟩
    rintro ⟨row, hmem, haccepts, -⟩
    exact absurd haccepts (hnone row hmem)
  | some row =>
    have hmem : row ∈ opTable := List.mem_of_find?_eq_some hfind
    have haccepts : row.accepts w = true := List.find?_some (p := fun row : OpRow => row.accepts w) hfind
    simp only [Decoded.legal.injEq]
    refine ⟨fun hbuild => ⟨row, hmem, haccepts, hbuild⟩, ?_⟩
    rintro ⟨q, hq, hqw, rfl⟩
    rw [opTable_unique hmem hq haccepts hqw]

/-- A row holds its mask and pattern field by field. -/
theorem OpRow.accepts_iff_fields (row : OpRow) (w : Word) :
    row.accepts w = true ↔
      opField w &&& opField row.mask = opField row.pattern ∧ aField w &&& aField row.mask = aField row.pattern ∧
      dField w &&& dField row.mask = dField row.pattern := by
  rw [OpRow.accepts, beq_iff_eq, ← wordFields_injective.eq_iff]
  simp [wordFields, opField, aField, dField, BitVec.extractLsb'_and]

/-- The opcode map as fields: the words of a command are those with its fields. -/
theorem decode_eq_legal_iff_fields {w : Word} {i : Instr} : decode w = .legal i ↔ wordFields w = fieldsOf i := by
  have nibble_ones (x : Nibble) : x &&& 15#4 = x := BitVec.and_allOnes
  have byte_ones (x : Byte) : x &&& 255#8 = x := BitVec.and_allOnes
  rw [decode_eq_legal_iff_row]
  simp only [opTable, List.exists_mem_cons_iff, List.not_mem_nil, false_and, exists_false, or_false,
    OpRow.accepts_iff_fields]
  cases i with
  | nop | clear | startM | startR | push | read | rdbuf =>
    simp [wordFields, fieldsOf, opField, aField, dField, nibble_ones, byte_ones, and_comm, and_left_comm, and_assoc]

/-- The round trip: a word is `encode i` exactly when it has that word's fields, which are those of `i`. -/
theorem decode_eq_legal_iff {w : Word} {i : Instr} : decode w = .legal i ↔ w = encode i := by
  rw [decode_eq_legal_iff_fields, ← wordFields_encode, wordFields_injective.eq_iff]

theorem decode_encode (i : Instr) : decode (encode i) = .legal i := decode_eq_legal_iff.mpr rfl

theorem encode_injective : Function.Injective encode := by
  intro i j h
  have hlegal : Decoded.legal i = .legal j := by rw [← decode_encode i, ← decode_encode j, h]
  exact Decoded.legal.inj hlegal

/-! ### Legal and illegal words (30_encoding.md R74) -/

theorem exists_legal_iff (w : Word) : (∃ i, decode w = .legal i) ↔ ∃ i, encode i = w :=
  exists_congr fun _ => decode_eq_legal_iff.trans eq_comm

theorem exists_illegal_iff (w : Word) : (∃ why, decode w = .illegal why) ↔ ¬ ∃ i, decode w = .legal i := by
  cases decode w with
  | legal i => simp
  | illegal why => simp

theorem Instr.exists_iff {P : Instr → Prop} :
    (∃ i, P i) ↔ P .nop ∨ P .clear ∨ P .startM ∨ (∃ n, P (.startR n)) ∨ (∃ d, P (.push d)) ∨
      (∃ r, P (.read r)) ∨ ∃ a, P (.rdbuf a) := by
  constructor
  · rintro ⟨i, hi⟩
    cases i with
    | nop => exact .inl hi
    | clear => exact .inr (.inl hi)
    | startM => exact .inr (.inr (.inl hi))
    | startR n => exact .inr (.inr (.inr (.inl ⟨n, hi⟩)))
    | push d => exact .inr (.inr (.inr (.inr (.inl ⟨d, hi⟩))))
    | read r => exact .inr (.inr (.inr (.inr (.inr (.inl ⟨r, hi⟩)))))
    | rdbuf a => exact .inr (.inr (.inr (.inr (.inr (.inr ⟨a, hi⟩)))))
  · rintro (h | h | h | ⟨n, h⟩ | ⟨d, h⟩ | ⟨r, h⟩ | ⟨a, h⟩)
    all_goals exact ⟨_, h⟩

/-- The legal words by their fields: the complement of the four groups. -/
theorem exists_legal_iff_fields (w : Word) :
    (∃ i, decode w = .legal i) ↔
      ((opField w = 0#4 ∨ opField w = 1#4 ∨ opField w = 2#4) ∧ aField w = 0#4 ∧ dField w = 0#8) ∨
      ((opField w = 3#4 ∨ opField w = 5#4 ∨ opField w = 6#4) ∧ dField w = 0#8) ∨
      (opField w = 4#4 ∧ aField w = 0#4) := by
  simp only [decode_eq_legal_iff_fields, Instr.exists_iff, wordFields, fieldsOf, Prod.mk.injEq, exists_and_left,
    exists_and_right, exists_eq', true_and, and_true]
  tauto

/-- Every value of a field. -/
def fieldValues (n : Nat) : List (BitVec n) := (List.finRange (2 ^ n)).map BitVec.ofFin

theorem mem_fieldValues {n : Nat} (x : BitVec n) : x ∈ fieldValues n :=
  List.mem_map.mpr ⟨x.toFin, List.mem_finRange _, rfl⟩

theorem fieldValues_nodup (n : Nat) : (fieldValues n).Nodup :=
  (List.nodup_finRange _).map fun _ _ h => BitVec.ofFin.inj h

theorem fieldValues_length (n : Nat) : (fieldValues n).length = 2 ^ n := by simp [fieldValues]

/-- Every command with every operand, in the order of the opcode map. -/
def allCommands : List Instr :=
  [.nop, .clear, .startM] ++ (fieldValues 4).map .startR ++ (fieldValues 8).map .push ++ (fieldValues 4).map .read ++
    (fieldValues 4).map .rdbuf

theorem mem_allCommands (i : Instr) : i ∈ allCommands := by
  cases i with
  | nop | clear | startM | startR | push | read | rdbuf => simp [allCommands, mem_fieldValues]

theorem allCommands_length : allCommands.length = 307 := by simp [allCommands, fieldValues_length]

theorem allCommands_nodup : allCommands.Nodup := by
  have hstartR : ((fieldValues 4).map Instr.startR).Nodup := (fieldValues_nodup 4).map fun _ _ => Instr.startR.inj
  have hpush : ((fieldValues 8).map Instr.push).Nodup := (fieldValues_nodup 8).map fun _ _ => Instr.push.inj
  have hread : ((fieldValues 4).map Instr.read).Nodup := (fieldValues_nodup 4).map fun _ _ => Instr.read.inj
  have hrdbuf : ((fieldValues 4).map Instr.rdbuf).Nodup := (fieldValues_nodup 4).map fun _ _ => Instr.rdbuf.inj
  simp [allCommands, List.nodup_append', List.disjoint_left, hstartR, hpush, hread, hrdbuf]

/-! ### The assembler's lines (30_encoding.md R77, R78) -/

/-- The column "encodes to" of R77 for a command with a 4-bit operand below 16. -/
theorem encode_nibble_operand {n : Nat} (h : n < 16) :
    encode (.startR (BitVec.ofNat 4 n)) = BitVec.ofNat 16 (0x3000 + n * 256) ∧
    encode (.read (BitVec.ofNat 4 n)) = BitVec.ofNat 16 (0x5000 + n * 256) ∧
    encode (.rdbuf (BitVec.ofNat 4 n)) = BitVec.ofNat 16 (0x6000 + n * 256) := by
  refine ⟨?_, ?_, ?_⟩
  all_goals
    apply BitVec.eq_of_toNat_eq
    simp only [encode_toNat, fieldsOf, BitVec.toNat_ofNat]
    omega

theorem encode_push_ofNat {b : Nat} (h : b < 256) :
    encode (.push (BitVec.ofNat 8 b)) = BitVec.ofNat 16 (0x4000 + b) := by
  apply BitVec.eq_of_toNat_eq
  simp only [encode_toNat, fieldsOf, BitVec.toNat_ofNat]
  omega

theorem AsmLine.assemble_of_wellFormed {l : AsmLine} (h : l.wellFormed = true) :
    l.assemble = some (l.expand.map encode) := if_pos h

theorem AsmLine.assemble_of_not_wellFormed {l : AsmLine} (h : ¬ l.wellFormed = true) : l.assemble = none := if_neg h

theorem fitsNibble_iff (n : Nat) : fitsNibble n = true ↔ n < 16 := decide_eq_true_iff

theorem fitsByte_iff (b : Nat) : fitsByte b = true ↔ b < 256 := decide_eq_true_iff

theorem map_encode_pushes {bytes : List Nat} (h : ∀ b ∈ bytes, b < 256) :
    (bytes.map fun b => Instr.push (BitVec.ofNat 8 b)).map encode = bytes.map fun b => BitVec.ofNat 16 (0x4000 + b) := by
  rw [List.map_map]
  exact List.map_congr_left fun b hb => encode_push_ofNat (h b hb)

end Sys2Proof

namespace Sys2Proof.Machine

/-! ### Decoding settled (30_encoding.md R72 to R74) -/

/-- Settles O8: `decode_eq_legal_iff`, over the fields of the word and of the command. -/
theorem decodeIffEncode : Obligations.DecodeIffEncode := fun _ _ => decode_eq_legal_iff

theorem runWord_illegal {w : Word} {why : IllegalWord} (h : decode w = .illegal why) (s : State) :
    runWord w s = .next (s.recordErr .illegal) := by simp only [runWord, h]

/-- Settles O9: the four groups are the complement of `exists_legal_iff_fields`, and the legal words are the encodings of
`allCommands`. -/
theorem illegalWordsRecordIllegal : Obligations.IllegalWordsRecordIllegal := by
  refine ⟨fun w => ?_, ⟨allCommands.map encode, ?_, ?_, fun w => ?_⟩, fun w s why h => runWord_illegal h s⟩
  · rw [exists_illegal_iff, exists_legal_iff_fields]
    bv_omega
  · exact allCommands_nodup.map encode_injective
  · rw [List.length_map, allCommands_length]
  · simp [exists_legal_iff, mem_allCommands]

/-- Settles O10: each word is, bit for bit, the encoding of its command (`decode_encode`). -/
theorem specWordsDecode : Obligations.SpecWordsDecode :=
  ⟨decode_encode .nop, decode_encode .clear, decode_encode .startM, decode_encode (.startR 7#4),
    decode_encode (.push 0x64#8), decode_encode (.read 4#4), decode_encode (.rdbuf 8#4), by decide⟩

/-! ### The assembler's text (30_encoding.md R77) -/

theorem stripComment_append_comment (text comment : List Char) :
    stripComment (text ++ ';' :: comment) = stripComment text := by
  unfold stripComment
  induction text with
  | nil => rfl
  | cons c cs ih => rw [List.cons_append, List.takeWhile_cons, List.takeWhile_cons, ih]

theorem assembleText_append_comment (text comment : List Char) :
    assembleText (text ++ ';' :: comment) = assembleText text := by
  have hline : parseLine (text ++ ';' :: comment) = parseLine text := by
    unfold parseLine
    rw [stripComment_append_comment]
  unfold assembleText
  rw [hline]

/-- Settles O11: a line is accepted exactly when its operand fits the field, its word is then the encoding of the command it
expands to; a comment is no part of the text by `assembleText_append_comment`. -/
theorem assemblerLineWords : Obligations.AssemblerLineWords := by
  refine ⟨fun n => ⟨fun h => ?_, fun h => ?_⟩, fun b => ⟨fun h => ?_, fun h => ?_⟩, assembleText_append_comment⟩
  · have hfits := (fitsNibble_iff n).mpr h
    obtain ⟨hstartR, hread, hrdbuf⟩ := encode_nibble_operand h
    refine ⟨?_, ?_, ?_⟩
    · rw [AsmLine.assemble_of_wellFormed (l := .startR n) hfits, ← hstartR]; rfl
    · rw [AsmLine.assemble_of_wellFormed (l := .read n) hfits, ← hread]; rfl
    · rw [AsmLine.assemble_of_wellFormed (l := .rdbuf n) hfits, ← hrdbuf]; rfl
  · have hwide : ¬ fitsNibble n = true := (fitsNibble_iff n).not.mpr (by omega)
    exact ⟨AsmLine.assemble_of_not_wellFormed hwide, AsmLine.assemble_of_not_wellFormed hwide,
      AsmLine.assemble_of_not_wellFormed hwide⟩
  · rw [AsmLine.assemble_of_wellFormed (l := .push b) ((fitsByte_iff b).mpr h), ← encode_push_ofNat h]; rfl
  · exact AsmLine.assemble_of_not_wellFormed ((fitsByte_iff b).not.mpr (by omega))

/-- Settles O12: the line is accepted, and its words are those of START and of one PUSH for each byte. -/
theorem pseudoInstructionWords : Obligations.PseudoInstructionWords := by
  intro bytes hbytes
  have hfit : bytes.all fitsByte = true := List.all_eq_true.mpr fun b hb => (fitsByte_iff b).mpr (hbytes b hb)
  refine ⟨fun hlen => ?_, fun hmin hmax => ?_⟩
  · have hwf : (AsmLine.frameM bytes).wellFormed = true := by simp [AsmLine.wellFormed, hlen, hfit]
    rw [AsmLine.assemble_of_wellFormed hwf, AsmLine.expand, List.map_cons, map_encode_pushes hbytes]
    rfl
  · have hwf : (AsmLine.frameR bytes).wellFormed = true := by simp [AsmLine.wellFormed, hmin, hmax, hfit]
    obtain ⟨hstartR, -, -⟩ := encode_nibble_operand (n := bytes.length) (by omega)
    rw [AsmLine.assemble_of_wellFormed hwf, AsmLine.expand, List.map_cons, map_encode_pushes hbytes, hstartR]

end Sys2Proof.Machine
end

section
/-! PROOFS. The control family (40_control.md): what one rising edge runs, CLEAR, NOP and the two STARTs, and the statements O14,
O4, O13, O15 and O16. -/

namespace Sys2Proof.Machine

/-! ### One rising edge (40_control.md R100, 70_reset_and_hazards.md R210, R214) -/

theorem clockEdge_of_rst {p : Pins} (hrst : p.rst = true) (s : State) : clockEdge p s = .next s.resetEdge := by
  simp [clockEdge, hrst]

theorem clockEdge_of_command {p : Pins} {s : State} (hrst : p.rst = false) (hvalid : p.cmdValid = true)
    (hreset : s.awaitingReset = false) : clockEdge p s = runWord p.cmd s := by
  simp [clockEdge, hrst, hvalid, hreset]

theorem clockEdge_of_idle {p : Pins} (hrst : p.rst = false) (hvalid : p.cmdValid = false) (s : State) :
    clockEdge p s = .next s := by
  simp [clockEdge, hrst, hvalid]

/-- A step is the first listed edge, on the state with that edge taken off the list. -/
theorem step_of_edge {s : State} {p : Pins} {rest : List HostInput} (hin : s.inputs = .edge p :: rest) :
    step s = clockEdge p { s with inputs := rest } := by
  simp [step, State.nextInput_of_inputs hin, State.dropInput, hin, applyInput]

theorem runWord_legal {w : Word} {i : Instr} (h : decode w = .legal i) (s : State) : runWord w s = exec i s := by
  simp only [runWord, h]

/-! ### CLEAR (40_control.md R102) -/

/-- Every other command keeps the first error recorded (`CommandEffect.errCode_eq`). -/
theorem CommandEffect.eq_clear_of_clears_errCode {i : Instr} {s t : State} (h : CommandEffect s i t)
    (hs : s.errCode ≠ 0#3) (ht : t.errCode = 0#3) : i = .clear := by
  by_contra hclear
  have hkept : t.errCode = s.errCode := (h.errCode_eq hclear).trans (firstError_of_ne _ hs)
  exact hs (hkept.symm.trans ht)

/-- Settles O14: CLEAR answers `clearElements`, of which `resetEdge` is the same state with the wait for the first reset ended. -/
theorem clearIsSoftReset : Obligations.ClearIsSoftReset :=
  ⟨fun _ => decode_eq_legal_iff,
    fun s => ⟨s.clearElements, rfl, s.clearElements_atResetValues, rfl, rfl, rfl, fun _ _ => clockEdge_of_rst rfl s⟩,
    fun _ _ _ hexec => (CommandEffect.of_exec hexec).eq_clear_of_clears_errCode⟩

/-- Settles O4: `step_of_edge`, then the branch of `clockEdge` that the pins choose. -/
theorem stepRunsPresentedWord : Obligations.StepRunsPresentedWord := by
  intro s p rest hin
  refine ⟨fun hrst hvalid hreset => ?_, fun hrst hvalid => ?_, fun hrst v w => ?_⟩
  · have hrun : step s = runWord p.cmd { s with inputs := rest } :=
      (step_of_edge hin).trans (clockEdge_of_command hrst hvalid hreset)
    exact ⟨fun i hd => hrun.trans (runWord_legal hd _), fun why hd => hrun.trans (runWord_illegal hd _)⟩
  · exact (step_of_edge hin).trans (clockEdge_of_idle hrst hvalid _)
  · rw [step_of_edge hin, step_of_edge (p := ⟨true, v, w⟩) rfl, clockEdge_of_rst hrst, clockEdge_of_rst rfl]

/-! ### NOP (40_control.md R101) -/

/-- No other command has `op` = 0 (30_encoding.md R72). -/
theorem eq_nop_of_opField_zero {w : Word} {i : Instr} (hd : decode w = .legal i) (hop : opField w = 0#4) : i = .nop := by
  have hfields : (Laws.EncodedFields.fieldsOf i).1 = 0#4 := by
    rw [← decode_eq_legal_iff_fields.mp hd]; exact hop
  cases i with
  | nop => rfl
  | clear | startM | startR | push | read | rdbuf => simp [Laws.EncodedFields.fieldsOf] at hfields

/-- Settles O13: a legal word with `op` = 0 is NOP's, and NOP has one word. -/
theorem nopChangesNothing : Obligations.NopChangesNothing := by
  refine ⟨fun _ => decode_eq_legal_iff, fun w hop hne => (exists_illegal_iff w).mpr ?_, fun _ => rfl⟩
  rintro ⟨i, hd⟩
  obtain rfl := eq_nop_of_opField_zero hd hop
  exact hne (decode_eq_legal_iff.mp hd)

/-! ### START.M and START.R (40_control.md R103, R104) -/

/-- Settles O15: `startFrame` for a frame of nine bytes, whatever the phase. -/
theorem startMBeginsMeasurementFrame : Obligations.StartMBeginsMeasurementFrame :=
  ⟨fun _ => decode_eq_legal_iff, fun _ => rfl⟩

theorem exec_startR_of_accepted {n : Nibble} (h : 1 ≤ n.toNat ∧ n.toNat ≤ 9) (s : State) :
    exec (.startR n) s = .next (s.startFrame .raw n) :=
  exec_eq_next_iff.mpr (.startR n ((rawLenOk_iff n).mpr h))

theorem exec_startR_of_refused {n : Nibble} (h : n.toNat = 0 ∨ 10 ≤ n.toNat) (s : State) :
    exec (.startR n) s = .next (s.recordErr .badLen) := by
  have hbad : ¬ rawLenOk n = true := by rw [rawLenOk_iff]; omega
  exact exec_eq_next_iff.mpr (.badLen n (Bool.eq_false_iff.mpr hbad))

theorem okOf_rawStatus (isMatch : Bool) : okOf (rawStatus isMatch) = isMatch := by cases isMatch <;> rfl

/-- The checksum verdict is the success flag of a raw frame (41_frame.md R130, R131). -/
theorem State.complete_raw_ok {s : State} (d : Byte) (hk : s.kind = .raw) : (s.complete d).ok = decide (s.sum = d) := by
  rw [State.complete_raw d hk]
  exact okOf_rawStatus _

/-- A raw frame of one byte completes at once, and the byte is held against the empty sum (40_control.md R104, 41_frame.md
R121). -/
theorem exec_push_of_one_byte_frame (s : State) (d : Byte) :
    ∃ u, exec (.push d) (s.startFrame .raw 1#4) = .next u ∧ u.phase = .done ∧ u.ok = decide (d = 0x00#8) := by
  have hfinal : (s.startFrame .raw 1#4).finalByte := by simp [State.finalByte]
  refine ⟨_, exec_eq_next_iff.mpr (.pushFinal d rfl (by simp) hfinal), (State.complete_frame _ d).1, ?_⟩
  rw [State.complete_raw_ok d rfl]
  exact decide_eq_decide.mpr eq_comm

/-- Settles O16: the frame of one byte by `exec_push_of_one_byte_frame`, the word by the round trip, and the two answers of
START.R by the length it is given. -/
theorem startRBeginsRawFrame : Obligations.StartRBeginsRawFrame := by
  refine ⟨fun s d => ?_, fun n => ⟨fun _ => decode_eq_legal_iff, fun s => ⟨fun h => ?_, fun h => ?_⟩⟩⟩
  · obtain ⟨u, hpush, hdone, hok⟩ := exec_push_of_one_byte_frame s d
    exact ⟨_, u, exec_startR_of_accepted (by decide) s, hpush, hdone, hok⟩
  · exact exec_startR_of_accepted h s
  · exact exec_startR_of_refused h s

end Sys2Proof.Machine
end

section
/-! PROOFS. The frame's family (41_frame.md): the classifier, the temperature, the checksum, what the completion of a frame
latches, and the statements O46, O17 and O19 to O25. -/

namespace Sys2Proof.Machine

/-! ### The classifier (41_frame.md R125) -/

/-- The two sentinels as patterns (41_frame.md R132). -/
theorem toInt_eq_neg_one_iff (w : Word) : w.toInt = -1 ↔ w = 0xFFFF#16 := BitVec.toInt_inj (y := 0xFFFF#16)

theorem toInt_eq_neg_four_iff (w : Word) : w.toInt = -4 ↔ w = 0xFFFC#16 := BitVec.toInt_inj (y := 0xFFFC#16)

theorem classify_code (D S : Word) :
    (classify D S).code =
      if D.toInt = -1 then 10#4 else if S.toInt = -1 then 11#4 else if D.toInt = -4 then 12#4 else 0#4 := by
  rw [classify, apply_ite StatusCode.code, apply_ite StatusCode.code, apply_ite StatusCode.code]
  rfl

theorem classify_code_patterns (D S : Word) :
    (classify D S).code =
      if D = 0xFFFF#16 then 10#4 else if S = 0xFFFF#16 then 11#4 else if D = 0xFFFC#16 then 12#4 else 0#4 := by
  simp only [classify_code, toInt_eq_neg_one_iff, toInt_eq_neg_four_iff]

/-- Settles O24: the order of the tests, and the sentinels as patterns. -/
theorem classifierPrecedence : Obligations.ClassifierPrecedence :=
  fun D S => ⟨classify_code D S, classify_code_patterns D S⟩

/-! ### The temperature (41_frame.md R123) -/

/-- The result fits in 16 bits, so `u16` does not wrap. -/
theorem celsius_toInt (T : Word) : (celsius T).toInt = T.toInt / 8 - 256 := by
  have hlo := T.le_toInt
  have hhi := T.toInt_lt
  rw [celsius, u16, BitVec.toInt_ofInt]
  exact Int.bmod_eq_of_le (by simp only [shiftRightArith, s16]; omega) (by simp only [shiftRightArith, s16]; omega)

theorem celsius_toInt_range (T : Word) : -4352 ≤ (celsius T).toInt ∧ (celsius T).toInt ≤ 3839 := by
  have hlo := T.le_toInt
  have hhi := T.toInt_lt
  rw [celsius_toInt]
  omega

/-- With bit 15 clear the signed value is the unsigned one, so the two shifts agree. -/
theorem celsius_of_msb_clear {T : Word} (h : T.msb = false) : celsius T = (T >>> 3) - 256#16 := by
  have hT : T.toInt = T.toNat := BitVec.toInt_eq_toNat_of_msb h
  have hshift : (T >>> 3).toInt = T.toInt / 8 := by
    rw [BitVec.toInt_ushiftRight_of_lt (by decide), hT, Nat.shiftRight_eq_div_pow]; rfl
  have hrange := celsius_toInt_range T
  apply BitVec.eq_of_toInt_eq
  rw [BitVec.toInt_sub, hshift, show (256#16).toInt = 256 from rfl, ← celsius_toInt]
  exact (Int.bmod_eq_of_le (by omega) (by omega)).symm

/-- With bit 15 set the two shifts part: the signed value is negative, the unsigned one at least 2^15. -/
theorem celsius_of_msb_set {T : Word} (h : T.msb = true) :
    (celsius T).toInt ≤ -257 ∧ 3840 ≤ ((T >>> 3) - 256#16).toNat ∧ ((T >>> 3) - 256#16).toNat ≤ 7935 := by
  have hneg : T.toInt < 0 := BitVec.toInt_neg_of_msb_true h
  have hlarge : 32768 ≤ T.toNat := BitVec.le_toNat_of_msb_true h
  have hlt := T.isLt
  refine ⟨by rw [celsius_toInt]; omega, ?_⟩
  rw [BitVec.toNat_sub, BitVec.toNat_ushiftRight, Nat.shiftRight_eq_div_pow]
  simp only [BitVec.toNat_ofNat]
  omega

/-- Settles O25: the conversion does not wrap, and bit 15 is the sign. -/
theorem celsiusIsArithmeticShift : Obligations.CelsiusIsArithmeticShift := by
  refine ⟨by decide, fun T => ?_⟩
  obtain ⟨hlo, hhi⟩ := celsius_toInt_range T
  have hbit : T.msb = T.getLsbD 15 := BitVec.msb_eq_getLsbD_last T
  exact ⟨celsius_toInt T, hlo, hhi, fun h => celsius_of_msb_clear (hbit.trans h), fun h => celsius_of_msb_set (hbit.trans h)⟩

/-! ### The checksum (41_frame.md R121) -/

theorem sumFirst_toNat (b : Nat → Byte) (n : Nat) :
    (sumFirst b n).toNat = (∑ k ∈ Finset.range n, (b k).toNat) % 256 := by
  induction n with
  | zero => rfl
  | succ n ih => rw [sumFirst, BitVec.toNat_add, ih, Finset.sum_range_succ, Nat.mod_add_mod]

theorem checksumValid_iff (b : Nat → Byte) (n : Nat) : checksumValid b n = true ↔ checksum b n = b (n - 1) := beq_iff_eq

/-! ### The final byte (41_frame.md R120) -/

/-- The state whose frame a final PUSH completes: its byte is stored and `idx` is at the frame's length. -/
def State.withFinalByte (s : State) (d : Byte) : State :=
  { s with buf := Memory.write s.buf s.idx.toNat d, idx := s.len }

/-- A final PUSH is the completion of that state. -/
theorem exec_push_final {s : State} (d : Byte) (hp : s.phase = .collect) (hidx : s.idx.toNat ≤ 8) (hf : s.finalByte) :
    exec (.push d) s = .next ((s.withFinalByte d).complete d) :=
  execPush_final hp (by omega) hf

theorem State.complete_buf (s : State) (d : Byte) : (s.complete d).buf = s.buf := by simp [State.complete_frame]

theorem State.bytes_withFinalByte {s : State} (hwf : Memory.wf s.buf = true) (d : Byte) :
    (s.withFinalByte d).bytes = s.pushedBytes d :=
  funext (State.read_write_pushed hwf d)

theorem State.bytes_completed {s : State} (hwf : Memory.wf s.buf = true) (d : Byte) :
    ((s.withFinalByte d).complete d).bytes = s.pushedBytes d := by
  rw [State.bytes, State.complete_buf]; exact State.bytes_withFinalByte hwf d

section collected
variable {s : State} (hform : s.ReachableForm) (hp : s.phase = .collect) (hf : s.finalByte)
include hform hp hf

/-- Under R40 the final byte goes to the frame's last address. -/
theorem State.ReachableForm.idx_of_finalByte : s.idx.toNat = s.len.toNat - 1 := by
  obtain ⟨-, -, hlt, -, -⟩ := hform.collect hp
  unfold State.finalByte at hf
  omega

theorem State.ReachableForm.pushedBytes_last (d : Byte) : s.pushedBytes d (s.len.toNat - 1) = d :=
  if_pos (hform.idx_of_finalByte hp hf).symm

/-- The byte that is not summed is the one that the final PUSH writes. -/
theorem State.ReachableForm.checksum_pushedBytes (d : Byte) : checksum (s.pushedBytes d) s.len.toNat = s.sum := by
  obtain ⟨-, -, -, -, hsum⟩ := hform.collect hp
  rw [checksum, ← hform.idx_of_finalByte hp hf, hsum]
  exact sumFirst_congr fun a ha => if_neg (by omega)

end collected

/-! ### What a completion latches (41_frame.md R124 to R131) -/

theorem okOf_eq_decide (c : StatusCode) : okOf c = decide (c.code = 0#4) := by cases c <;> rfl

theorem decodeFrame_of_invalid {b : Nat → Byte} (h : ¬ checksumValid b 9 = true) : decodeFrame b = (none, .checksum) :=
  if_neg h

theorem decodeFrame_status (b : Nat → Byte) :
    (decodeFrame b).2 = if checksumValid b 9 = true then classify (le16 (b 2) (b 3)) (le16 (b 4) (b 5)) else .checksum :=
  apply_ite Prod.snd ..

/-- `ok` says that the status is Ready (10_state.md R30). -/
theorem State.complete_ok (s : State) (d : Byte) : (s.complete d).ok = decide ((s.complete d).status = 0#4) := by
  cases hk : s.kind with
  | meas => rw [State.complete_meas d hk]; exact okOf_eq_decide _
  | raw => rw [State.complete_raw d hk]; exact okOf_eq_decide _

theorem rawStatus_code (isMatch : Bool) : (rawStatus isMatch).code = if isMatch = true then 0#4 else 3#4 := by
  cases isMatch <;> rfl

theorem State.complete_meas_hdrOk {s : State} (d : Byte) (hk : s.kind = .meas) :
    (s.complete d).hdrOk = decide (s.bytes 0 = 0x59#8 ∧ s.bytes 1 = 0x59#8) := by
  rw [State.complete_meas d hk]; exact headerSeen_eq ..

/-- A completion latches the results of the frame in its buffer, where the running sum is that frame's checksum and the pushed
byte its last one. -/
theorem State.complete_resultsOfBuffer {s : State} {d : Byte} (hsum : checksum s.bytes s.len.toNat = s.sum)
    (hlast : s.bytes (s.len.toNat - 1) = d) (hmeas : s.kind = .meas → s.len = 9#4) : (s.complete d).ResultsOfBuffer := by
  obtain ⟨-, -, hresKind, hckCalc, hckRecv, hckOk, hkind, hlen, -, -, hbuf, -⟩ := s.complete_frame d
  have hbytes : (s.complete d).bytes = s.bytes := congrArg Memory.read hbuf
  have hverdict : checksumValid s.bytes s.len.toNat = decide (s.sum = d) := by rw [checksumValid, hsum, hlast]; rfl
  have hverdict9 (hk : s.kind = .meas) : checksumValid s.bytes 9 = decide (s.sum = d) := by
    rw [← hverdict, hmeas hk]; rfl
  constructor
  case kindOf => rw [hresKind, hkind]
  case ckCalcOf => rw [hckCalc, hbytes, hlen, hsum]
  case ckRecvOf => rw [hckRecv, hbytes, hlen, hlast]
  case ckOkOf => rw [hckOk, hbytes, hlen, hverdict]
  case okOf => rw [s.complete_ok d, decide_eq_true_iff]
  case hdrOkOf =>
    rw [hkind, hbytes]
    cases hk : s.kind with
    | meas => simp [State.complete_meas_hdrOk d hk]
    | raw => simp [State.complete_raw d hk]
  case measStatus =>
    rw [hkind, hbytes]
    intro hk
    rw [State.complete_meas d hk, decodeFrame_status, hverdict9 hk]
    simp only [decide_eq_true_eq]
    rfl
  case measFields =>
    rw [hkind, hbytes]
    intro hk m hm
    by_cases hmatch : s.sum = d
    · rw [decodeFrame_of_valid (by simp [hverdict9 hk, hmatch])] at hm
      cases hm
      exact State.complete_fields_of_match hk hmatch
    · rw [decodeFrame_of_invalid (by simp [hverdict9 hk, hmatch])] at hm
      cases hm
  case rawStatus =>
    rw [hkind, hbytes, hlen, hverdict]
    intro hk
    rw [State.complete_raw d hk, rawStatus_code]

/-- The final PUSH of a frame latches that frame's results. -/
theorem State.ReachableForm.resultsOfBuffer_pushFinal {s : State} (hform : s.ReachableForm) (hwf : Memory.wf s.buf = true)
    (d : Byte) (hp : s.phase = .collect) (hf : s.finalByte) : ((s.withFinalByte d).complete d).ResultsOfBuffer := by
  have hbytes := State.bytes_withFinalByte hwf d
  refine State.complete_resultsOfBuffer ?_ ?_ fun hk => hform.measLen hk (by simp [hp])
  · rw [hbytes]; exact hform.checksum_pushedBytes hp hf d
  · rw [hbytes]; exact hform.pushedBytes_last hp hf d

/-! ### The results stay those of the frame in the buffer -/

/-- What a read, an error and the passing of an input change is no result. -/
theorem State.ResultsSound.with_readout {s : State} (h : s.ResultsSound) (v : Word) (e : BitVec 3) (inputs : List HostInput) :
    { s with rdata := v, errCode := e, inputs := inputs }.ResultsSound :=
  fun hreset hdone => { h hreset hdone with }

theorem State.ResultsSound.dropInput {s : State} (h : s.ResultsSound) : s.dropInput.ResultsSound :=
  h.with_readout s.rdata s.errCode _

theorem State.ResultsSound.recordErr {s : State} (h : s.ResultsSound) (e : HostError) : (s.recordErr e).ResultsSound :=
  h.with_readout s.rdata _ s.inputs

theorem State.ResultsSound.readOut {s : State} (h : s.ResultsSound) (v : Option Word) : (s.readOut v).ResultsSound := by
  rw [State.readOut_eq]; exact h.with_readout _ _ s.inputs

theorem State.resultsSound_of_phase {s : State} (h : s.phase ≠ .done) : s.ResultsSound := fun _ hdone => absurd hdone h

/-- Every command keeps the results sound: only a final PUSH enters DONE. -/
theorem CommandEffect.resultsSound {i : Instr} {s t : State} (h : CommandEffect s i t) (hwf : Memory.wf s.buf = true)
    (hform : s.ReachableForm) (hsound : s.ResultsSound) : t.ResultsSound := by
  cases h with
  | nop => exact hsound
  | clear | startM | startR => exact State.resultsSound_of_phase nofun
  | badLen => exact hsound.recordErr .badLen
  | pushIdle => exact hsound.recordErr .pushIdle
  | pushMore d hp => exact State.resultsSound_of_phase (by simp [hp])
  | pushFinal d hp _ hf => exact fun _ _ => hform.resultsOfBuffer_pushFinal hwf d hp hf
  | read | rdbuf => exact hsound.readOut _

/-- Settles O46: a command keeps the results sound (`CommandEffect.resultsSound`), an illegal word and an idle edge leave them,
and after a reset or a power-up there are none to be wrong about. -/
theorem everyStepKeepsResultsSound : Obligations.EveryStepKeepsResultsSound := by
  intro s t hinv hsound hstep
  rcases step_cases hstep with ⟨-, -, -, rfl⟩ | ⟨-, i, -, -, -, hreset, -, hexec⟩ | ⟨-, -, -, -, -, -, -, rfl⟩ |
    ⟨-, -, -, -, rfl⟩ | ⟨-, rfl⟩
  · exact State.resultsSound_of_phase nofun
  · exact (CommandEffect.of_exec hexec).resultsSound hinv.bufWf (hinv.form hreset).dropInput hsound.dropInput
  · exact hsound.dropInput.recordErr .illegal
  · exact hsound.dropInput
  · exact nofun

/-- Settles O23: the running sum counts the frame's bytes so far, so at the final byte it is the checksum, and the latched
results are those of the frame (`State.ReachableForm.resultsOfBuffer_pushFinal`). -/
theorem completionComparesFrameChecksum : Obligations.CompletionComparesFrameChecksum := by
  refine ⟨fun b n _ => ⟨sumFirst_toNat b (n - 1), checksumValid_iff b n⟩, fun _ => rfl, fun d s hinv hreset hp hf => ?_⟩
  have hform := hinv.form hreset
  obtain ⟨-, hlen9, hlt, -, -⟩ := hform.collect hp
  have hresults := hform.resultsOfBuffer_pushFinal hinv.bufWf d hp hf
  obtain ⟨-, -, -, hckCalc, -, -, -, -, -, hsum, -⟩ := (s.withFinalByte d).complete_frame d
  exact ⟨_, exec_push_final d hp (by omega) hf, by rw [hsum, ← hckCalc]; exact hresults.ckCalcOf, hresults.ckCalcOf,
    hresults.ckRecvOf, hresults.ckOkOf⟩

/-! ### PUSH (41_frame.md R120) -/

/-- Settles O17: the word by the round trip, the byte by `State.read_write_pushed`, and of a final byte what every completion
latches (`State.complete_frame`). -/
theorem pushAppendsByte : Obligations.PushAppendsByte := by
  refine fun d => ⟨fun _ => decode_eq_legal_iff, fun s => ⟨fun hp => execPush_idle hp, fun hp hidx hwf => ?_⟩⟩
  by_cases hmore : s.idx.toNat + 1 < s.len.toNat
  · exact ⟨_, execPush_more hp (by omega) hmore, State.read_write_pushed hwf d, fun _ => rfl, fun h => absurd hmore h⟩
  · refine ⟨_, exec_push_final d hp hidx hmore, congrFun (State.bytes_completed hwf d), fun h => absurd h hmore, fun _ => ?_⟩
    obtain ⟨hphase, hvalid, hresKind, hcalc, hrecv, hok, hkind, hlen, hidx', hsum, -, hrest⟩ :=
      (s.withFinalByte d).complete_frame d
    exact ⟨hidx', hcalc, hrecv, hok, hresKind, hvalid, hphase, hkind, hlen, hsum, hrest⟩

/-! ### The outcome of a frame (41_frame.md R126, R127, R130, R131) -/

section outcome
variable {s : State} {d : Byte} (hk : s.kind = .meas)
include hk

/-- A measurement frame that passes, every element (41_frame.md R127, R128). -/
theorem State.complete_meas_of_match (hm : s.sum = d) :
    s.complete d =
      { s with
        ckCalc := s.sum, ckRecv := d, ckOk := true, resKind := .meas, resValid := true, phase := .done
        hdrOk := decide (s.bytes 0 = 0x59#8 ∧ s.bytes 1 = 0x59#8)
        dist := le16 (s.bytes 2) (s.bytes 3), strength := le16 (s.bytes 4) (s.bytes 5), tempRaw := le16 (s.bytes 6) (s.bytes 7)
        status := (classify (le16 (s.bytes 2) (s.bytes 3)) (le16 (s.bytes 4) (s.bytes 5))).code
        ok := decide ((classify (le16 (s.bytes 2) (s.bytes 3)) (le16 (s.bytes 4) (s.bytes 5))).code = 0#4) } := by
  rw [State.complete_meas d hk, ← okOf_eq_decide, ← headerSeen_eq]
  simp only [hm, if_true, decide_true]
  rfl

/-- A measurement frame that fails, every element (41_frame.md R126, R128). -/
theorem State.complete_meas_of_mismatch (hm : s.sum ≠ d) :
    s.complete d =
      { s with
        ckCalc := s.sum, ckRecv := d, ckOk := false, resKind := .meas, resValid := true, phase := .done
        hdrOk := decide (s.bytes 0 = 0x59#8 ∧ s.bytes 1 = 0x59#8), status := 3#4, ok := false } := by
  rw [State.complete_meas d hk, ← headerSeen_eq]
  simp [hm, State.bytes, StatusCode.code, okOf]

end outcome

/-- Settles O19: `State.complete_meas_of_match` on the pushed frame, its classification as patterns. -/
theorem passingMeasFrameWritesFields : Obligations.PassingMeasFrameWritesFields := by
  intro d s hp hidx hf hk hwf hm
  refine ⟨_, exec_push_final d hp hidx hf, congrFun (State.bytes_completed hwf d), ?_⟩
  rw [State.complete_meas_of_match (s := s.withFinalByte d) hk hm, State.bytes_withFinalByte hwf d, ← classify_code_patterns]
  rfl

/-- Settles O20: `State.complete_meas_of_mismatch` on the pushed frame. -/
theorem failingMeasFrameKeepsFields : Obligations.FailingMeasFrameKeepsFields := by
  intro d s hp hidx hf hk hwf hm
  refine ⟨_, exec_push_final d hp hidx hf, congrFun (State.bytes_completed hwf d), ?_⟩
  rw [State.complete_meas_of_mismatch (s := s.withFinalByte d) hk hm, State.bytes_withFinalByte hwf d]
  rfl

/-- Settles O21: `State.complete_raw`, whose status and `ok` are the checksum verdict. -/
theorem rawFrameOutcome : Obligations.RawFrameOutcome := by
  intro d s hp hidx hf hk hwf
  refine ⟨_, exec_push_final d hp hidx hf, congrFun (State.bytes_completed hwf d), ?_⟩
  rw [State.complete_raw (s := s.withFinalByte d) d hk, okOf_rawStatus, rawStatus_code]
  simp only [decide_eq_true_eq]
  rfl

/-! ### The header bytes (41_frame.md R128) -/

/-- Two measurement frames that agree from byte 2 on have the same completion, but for `hdr_ok` and the buffer itself. -/
theorem State.complete_meas_congr {s : State} {m : Memory} (d : Byte) (hk : s.kind = .meas)
    (hm : ∀ a, 2 ≤ a → Memory.read m a = Memory.read s.buf a) :
    { s with buf := m }.complete d =
      { s.complete d with buf := m, hdrOk := ({ s with buf := m }.complete d).hdrOk } := by
  have hdist : { s with buf := m }.frameDistance = s.frameDistance := by simp [State.frameDistance, hm]
  have hstrength : { s with buf := m }.frameStrength = s.frameStrength := by simp [State.frameStrength, hm]
  have htemp : { s with buf := m }.frameTempRaw = s.frameTempRaw := by simp [State.frameTempRaw, hm]
  rw [State.complete_meas d hk, State.complete_meas (s := { s with buf := m }) d hk, hdist, hstrength, htemp]

/-- Status Header is not one of the five codes of a completion. -/
theorem State.complete_status_ne_header (s : State) (d : Byte) : (s.complete d).status ≠ 2#4 := by
  obtain ⟨c, hstatus, -, hc⟩ := s.complete_status d
  rw [hstatus]
  rcases hc with rfl | rfl | rfl | rfl | rfl <;> decide

/-- The state with two other bytes where a measurement frame has its header. -/
def State.withHeader (s : State) (x y : Byte) : State := { s with buf := Memory.write (Memory.write s.buf 0 x) 1 y }

theorem State.withHeader_wf {s : State} (hwf : Memory.wf s.buf = true) (x y : Byte) :
    Memory.wf (s.withHeader x y).buf = true :=
  Memory.write_wf (Memory.write_wf hwf x (by decide)) y (by decide)

theorem State.bytes_withHeader {s : State} (hwf : Memory.wf s.buf = true) (x y : Byte) (a : Nat) :
    (s.withHeader x y).bytes a = if a = 0 then x else if a = 1 then y else s.bytes a := by
  have hwf0 : Memory.wf (Memory.write s.buf 0 x) = true := Memory.write_wf hwf x (by decide)
  rw [State.bytes, State.withHeader, Memory.read_write hwf0, Memory.read_write hwf]
  by_cases h1 : a = 1
  · simp [h1]
  · simp only [if_neg h1]; rfl

/-- The final byte stands beside the header, wherever it is from byte 2 on. -/
theorem State.pushedBytes_withHeader {s : State} (hwf : Memory.wf s.buf = true) (d x y : Byte) (hidx : 2 ≤ s.idx.toNat)
    (a : Nat) :
    (s.withHeader x y).pushedBytes d a = if a = 0 then x else if a = 1 then y else s.pushedBytes d a := by
  have hidx' : (s.withHeader x y).idx = s.idx := rfl
  by_cases ha : a = s.idx.toNat
  · simp [State.pushedBytes, hidx', ha, show s.idx.toNat ≠ 0 by omega, show s.idx.toNat ≠ 1 by omega]
  · simp [State.pushedBytes, hidx', ha, State.bytes_withHeader hwf]

/-- Settles O22: the two completions are of frames that agree from byte 2 on (`State.complete_meas_congr`). -/
theorem headerBytesDecideNothing : Obligations.HeaderBytesDecideNothing := by
  intro d x y s hp hlo hhi hf hk hwf
  have hwf' := State.withHeader_wf hwf x y
  have hpushed := State.pushedBytes_withHeader hwf d x y hlo
  have hbytes := State.bytes_withFinalByte hwf d
  have hbytes' := State.bytes_withFinalByte hwf' d
  refine ⟨_, _, exec_push_final d hp hhi hf, exec_push_final (s := s.withHeader x y) d hp hhi hf, ?_, ?_, ?_, fun a => ?_,
    State.complete_status_ne_header _ d⟩
  · have h0 : s.pushedBytes d 0 = s.bytes 0 := if_neg (by omega)
    have h1 : s.pushedBytes d 1 = s.bytes 1 := if_neg (by omega)
    rw [State.complete_meas_hdrOk (s := s.withFinalByte d) d hk, hbytes, h0, h1]
    rfl
  · rw [State.complete_meas_hdrOk (s := (s.withHeader x y).withFinalByte d) d hk, hbytes', hpushed, hpushed]
    rfl
  · rw [State.complete_buf]
    refine State.complete_meas_congr (s := s.withFinalByte d) d hk fun a ha => ?_
    calc ((s.withHeader x y).withFinalByte d).bytes a = s.pushedBytes d a := by
          rw [hbytes', hpushed, if_neg (by omega), if_neg (by omega)]
      _ = (s.withFinalByte d).bytes a := by rw [hbytes]
  · rw [State.complete_buf, State.complete_buf]
    calc ((s.withHeader x y).withFinalByte d).bytes a = if a = 0 then x else if a = 1 then y else s.pushedBytes d a := by
          rw [hbytes', hpushed]
      _ = if a = 0 then x else if a = 1 then y else (s.withFinalByte d).bytes a := by rw [hbytes]

end Sys2Proof.Machine
end

section
/-! PROOFS. The read-out family (42_readout.md): the two answers of a read-out, the fields of the two packed words, and the
statements O27, O28, O26, O29 and O30. -/

namespace Sys2Proof.Machine

/-! ### The two answers of READ and RDBUF (42_readout.md R160, R162) -/

theorem State.readOut_none (s : State) :
    s.readOut none = { s with rdata := 0x0000#16, errCode := if s.errCode = 0#3 then 4#3 else s.errCode } := rfl

theorem exec_read_of_value {s : State} {r : Nibble} {v : Word} (h : s.selectorValue r = some v) :
    exec (.read r) s = .next { s with rdata := v } := by
  simp only [exec, execRead, h, State.readOut, State.setRdata]

/-- READ of a selector outside 0 to 7 is BAD_SEL (20_memory.md R51). -/
theorem exec_read_of_ge (s : State) {r : Nibble} (h : 8 ≤ r.toNat) :
    exec (.read r) s =
      .next { s with rdata := 0x0000#16, errCode := if s.errCode = 0#3 then 4#3 else s.errCode } := by
  have hnone : s.selectorValue r = none := Option.isNone_iff_eq_none.mp ((s.selectorValue_isNone r).mpr h)
  rw [← s.readOut_none, ← hnone]
  rfl

/-- RDBUF of an address outside 0 to 8 is BAD_SEL (20_memory.md R50). -/
theorem exec_rdbuf_of_ge (s : State) {i : Nibble} (h : 9 ≤ i.toNat) :
    exec (.rdbuf i) s =
      .next { s with rdata := 0x0000#16, errCode := if s.errCode = 0#3 then 4#3 else s.errCode } := by
  have hnone : s.bufferValue i = none := Option.isNone_iff_eq_none.mp ((s.bufferValue_isNone i).mpr h)
  rw [← s.readOut_none, ← hnone]
  rfl

/-- Settles O26: selectors 0 to 7 have the values of R160 (`exec_read_of_value`), the others none (`exec_read_of_ge`). -/
theorem readCopiesSelectedValue : Obligations.ReadCopiesSelectedValue :=
  ⟨fun _ _ => decode_eq_legal_iff,
    fun s => ⟨exec_read_of_value rfl, exec_read_of_value rfl, exec_read_of_value rfl, exec_read_of_value rfl,
      exec_read_of_value rfl, exec_read_of_value rfl, exec_read_of_value rfl, exec_read_of_value rfl,
      fun _ => exec_read_of_ge s⟩⟩

/-- Settles O29: the value of selector 4 is a function of `temp_raw`, which is 0 at the reset values. -/
theorem tempcFollowsTempRaw : Obligations.TempcFollowsTempRaw :=
  ⟨fun _ => exec_read_of_value rfl, by decide, by decide, fun _ => exec_read_tempc_of_atResetValues⟩

/-- Settles O30: an address of the buffer has a byte (`exec_rdbuf_of_le`), the others have none (`exec_rdbuf_of_ge`). -/
theorem rdbufCopiesBufferByte : Obligations.RdbufCopiesBufferByte :=
  fun _ => ⟨fun _ => decode_eq_legal_iff, fun s => ⟨exec_rdbuf_of_le s, exec_rdbuf_of_ge s⟩⟩

/-! ### The fields of the packed words (42_readout.md R161, R163) -/

/-- A field of one bit is that bit of the word. -/
theorem getLsbD_of_extractLsb' {w : Word} {k : Nat} {b : Bool} (h : w.extractLsb' k 1 = BitVec.ofBool b) :
    w.getLsbD k = b := by
  have hbit : (w.extractLsb' k 1).getLsbD 0 = w.getLsbD k := by simp
  rw [← hbit, h, BitVec.getLsbD_ofBool]
  rfl

theorem FrameKind.bit_eq_true_iff (k : FrameKind) : k.bit = true ↔ k = .raw := by
  cases k <;> simp [FrameKind.bit]

/-- Each field of the STATUS word, found by dropping the fields below it. -/
theorem State.statusWord_fields (s : State) :
    s.statusWord.extractLsb' 0 4 = s.status ∧
    s.statusWord.extractLsb' 4 1 = BitVec.ofBool s.ok ∧
    s.statusWord.extractLsb' 5 1 = BitVec.ofBool s.ckOk ∧
    s.statusWord.extractLsb' 6 1 = BitVec.ofBool s.hdrOk ∧
    s.statusWord.extractLsb' 7 1 = BitVec.ofBool s.resValid ∧
    s.statusWord.extractLsb' 8 1 = BitVec.ofBool s.resKind.bit ∧
    s.statusWord.extractLsb' 9 2 = s.phase.bits ∧
    s.statusWord.extractLsb' 11 1 = 0#1 ∧
    s.statusWord.extractLsb' 12 3 = s.errCode ∧
    s.statusWord.extractLsb' 15 1 = 0#1 := by
  rw [State.statusWord]
  refine ⟨?_, ?_, ?_, ?_, ?_, ?_, ?_, ?_, ?_, ?top⟩
  case top =>
    repeat rw [BitVec.extractLsb'_append_eq_of_le (by decide)]
    exact BitVec.extractLsb'_eq_self
  all_goals
    repeat rw [BitVec.extractLsb'_append_eq_of_le (by decide)]
    exact BitVec.extractLsb'_append_eq_right

/-- Each field of the CTRL word, likewise. -/
theorem State.ctrlWord_fields (s : State) :
    s.ctrlWord.extractLsb' 0 4 = s.idx ∧
    s.ctrlWord.extractLsb' 4 4 = s.len ∧
    s.ctrlWord.extractLsb' 8 1 = BitVec.ofBool s.kind.bit ∧
    s.ctrlWord.extractLsb' 9 7 = 0#7 := by
  rw [State.ctrlWord]
  refine ⟨?_, ?_, ?_, ?top⟩
  case top =>
    repeat rw [BitVec.extractLsb'_append_eq_of_le (by decide)]
    exact BitVec.extractLsb'_eq_self
  all_goals
    repeat rw [BitVec.extractLsb'_append_eq_of_le (by decide)]
    exact BitVec.extractLsb'_append_eq_right

theorem State.AtResetValues.statusWord_eq {s : State} (h : s.AtResetValues) : s.statusWord = 0x0000#16 := by
  obtain ⟨⟨hphase, -⟩, -, ⟨hstatus, hok, hckOk, hhdrOk, hvalid, hresKind⟩, -, ⟨herr, -⟩⟩ := h
  rw [State.statusWord, hphase, hstatus, hok, hckOk, hhdrOk, hvalid, hresKind, herr]
  rfl

/-- Settles O27: the word of selector 0 is the STATUS word, whose fields are those of `State.statusWord_fields`. -/
theorem statusWordLayout : Obligations.StatusWordLayout := by
  refine ⟨fun s => ?_, fun s h => exec_read_of_value (congrArg some h.statusWord_eq)⟩
  obtain ⟨hstatus, hok, hckOk, hhdrOk, hvalid, hkind, hphase, hbit11, herr, hbit15⟩ := s.statusWord_fields
  refine ⟨s.statusWord, exec_read_of_value rfl, hstatus, getLsbD_of_extractLsb' hok, getLsbD_of_extractLsb' hckOk,
    getLsbD_of_extractLsb' hhdrOk, getLsbD_of_extractLsb' hvalid, ?_, fun h => ?_, fun h => ?_, fun h => ?_,
    getLsbD_of_extractLsb' hbit11, herr, getLsbD_of_extractLsb' hbit15⟩
  · rw [getLsbD_of_extractLsb' hkind, FrameKind.bit_eq_true_iff]
  all_goals rw [hphase, h, Phase.bits]

/-- The CTRL word shows the frame's kind, its length and how far it is collected, and nothing else of the state. -/
theorem exec_read_ctrl {s : State} {k : FrameKind} {n i : Nibble} (hkind : s.kind = k) (hlen : s.len = n)
    (hidx : s.idx = i) :
    exec (.read 6#4) s = .next { s with rdata := 0#7 ++ BitVec.ofBool k.bit ++ n ++ i } := by
  subst hkind hlen hidx
  exact exec_read_of_value rfl

/-- Settles O28: the fields by `State.ctrlWord_fields`, and at each of the three moments the kind, the length and `idx` by
`exec_read_ctrl`; the final PUSH of a measurement frame leaves `idx` at its length, which R40 says is 9. -/
theorem ctrlWordLayout : Obligations.CtrlWordLayout := by
  refine ⟨fun s => ?_, fun s h => ?_, fun s t h => ?_, fun d s hinv hreset hp hk hf => ?_⟩
  · obtain ⟨hidx, hlen, hkind, hzero⟩ := s.ctrlWord_fields
    refine ⟨s.ctrlWord, exec_read_of_value rfl, hidx, hlen, ?_, hzero⟩
    rw [getLsbD_of_extractLsb' hkind, FrameKind.bit_eq_true_iff]
  · obtain ⟨-, hkind, hlen, hidx, -⟩ := h.frame
    exact exec_read_ctrl hkind hlen hidx
  · cases CommandEffect.of_exec h
    exact exec_read_ctrl (k := .meas) (n := 9#4) (i := 0#4) rfl rfl rfl
  · have hform := hinv.form hreset
    have hlen9 : s.len = 9#4 := hform.measLen hk (by simp [hp])
    obtain ⟨-, hle, hlt, -⟩ := hform.collect hp
    obtain ⟨-, -, -, -, -, -, hkind, hlen, hidx, -⟩ := (s.withFinalByte d).complete_frame d
    exact ⟨_, exec_push_final d hp (by omega) hf,
      exec_read_ctrl (hkind.trans hk) (hlen.trans hlen9) (hidx.trans hlen9)⟩

end Sys2Proof.Machine
end

section
/-! PROOFS. The exceptions' family (60_exceptions.md): what an error writes, what one edge can do, when a step goes on, runs of many
steps, what the host observes, and the statements O35, O36, O39, O47, O48, O6 and O32. -/

namespace Sys2Proof.Machine

/-! ### What an error writes (60_exceptions.md R181) -/

/-- The commands that have an error condition, with the code of each (60_exceptions.md R180). -/
theorem errorOf_cases {i : Instr} {s : State} (h : errorOf i s ≠ 0#3) :
    (∃ n, i = .startR n ∧ (n.toNat = 0 ∨ 10 ≤ n.toNat) ∧ errorOf i s = 3#3) ∨
    (∃ d, i = .push d ∧ s.phase ≠ .collect ∧ errorOf i s = 2#3) ∨
    (∃ r, i = .read r ∧ 8 ≤ r.toNat ∧ errorOf i s = 4#3) ∨
    (∃ a, i = .rdbuf a ∧ 9 ≤ a.toNat ∧ errorOf i s = 4#3) := by
  cases i with
  | nop | clear | startM => exact absurd rfl h
  | startR n =>
    have hbad : n.toNat = 0 ∨ 10 ≤ n.toNat := by_contra fun hn => h (if_neg hn)
    exact .inl ⟨n, rfl, hbad, if_pos hbad⟩
  | push d =>
    have hphase : s.phase ≠ .collect := fun hp => h (if_pos hp)
    exact .inr (.inl ⟨d, rfl, hphase, if_neg hphase⟩)
  | read r =>
    have hbad : 8 ≤ r.toNat := by_contra fun hr => h (if_neg hr)
    exact .inr (.inr (.inl ⟨r, rfl, hbad, if_pos hbad⟩))
  | rdbuf a =>
    have hbad : 9 ≤ a.toNat := by_contra fun ha => h (if_neg ha)
    exact .inr (.inr (.inr ⟨a, rfl, hbad, if_pos hbad⟩))

/-- Settles O35: the answers of the four erring commands, each with its own code. -/
theorem errorsChangeNothingElse : Obligations.ErrorsChangeNothingElse := by
  refine ⟨fun i s herr => ?_, fun w s why hd => runWord_illegal hd s⟩
  rcases errorOf_cases herr with ⟨n, rfl, hbad, hcode⟩ | ⟨d, rfl, hphase, hcode⟩ | ⟨r, rfl, hbad, hcode⟩ |
    ⟨a, rfl, hbad, hcode⟩
  all_goals rw [hcode]
  · exact exec_startR_of_refused hbad s
  · exact execPush_idle hphase
  · exact exec_read_of_ge s hbad
  · exact exec_rdbuf_of_ge s hbad

/-! ### What one rising edge can do (70_reset_and_hazards.md R210, R214) -/

/-- Every effect an edge with the pins `p` can have on the state, its input already taken off the list: `step_cases` with named
cases, a loss of power apart. -/
inductive EdgeEffect (s : State) (p : Pins) : State → Prop
  | reset (hrst : p.rst = true) : EdgeEffect s p s.resetEdge
  | command {i : Instr} {t : State} (hrst : p.rst = false) (hvalid : p.cmdValid = true) (hd : decode p.cmd = .legal i)
      (heffect : CommandEffect s i t) : EdgeEffect s p t
  | illegal {why : IllegalWord} (hrst : p.rst = false) (hvalid : p.cmdValid = true) (hd : decode p.cmd = .illegal why) :
      EdgeEffect s p (s.recordErr .illegal)
  | idle (hrst : p.rst = false) (hvalid : p.cmdValid = false) : EdgeEffect s p s

theorem EdgeEffect.of_step {s t : State} {p : Pins} (h : step s = .next t) (hin : s.nextInput = .edge p) :
    EdgeEffect s.dropInput p t := by
  rcases step_cases h with ⟨q, hq, hrst, rfl⟩ | ⟨q, i, hq, hrst, hvalid, -, hd, hexec⟩ |
    ⟨q, why, hq, hrst, hvalid, -, hd, rfl⟩ | ⟨q, hq, hrst, hvalid, rfl⟩ | ⟨hq, -⟩
  all_goals rw [hin] at hq; cases hq
  · exact .reset hrst
  · exact .command hrst hvalid hd (.of_exec hexec)
  · exact .illegal hrst hvalid hd
  · exact .idle hrst hvalid

theorem State.exists_edge_of_ne_powerCycle {s : State} (h : s.nextInput ≠ .powerCycle) : ∃ p, s.nextInput = .edge p := by
  cases hin : s.nextInput with
  | edge p => exact ⟨p, rfl⟩
  | powerCycle => exact absurd hin h

/-! ### The recorded error (60_exceptions.md R185) -/

/-- CLEAR is the only command that changes an error once recorded: the others keep the first one. -/
theorem CommandEffect.eq_clear_of_changes_errCode {i : Instr} {s t : State} (h : CommandEffect s i t)
    (hs : s.errCode ≠ 0#3) (ht : t.errCode ≠ s.errCode) : i = .clear :=
  by_contra fun hclear => ht ((h.errCode_eq hclear).trans (firstError_of_ne _ hs))

theorem CommandEffect.errorOf_ne_of_records {i : Instr} {s t : State} (h : CommandEffect s i t) (hs : s.errCode = 0#3)
    (ht : t.errCode ≠ 0#3) : errorOf i s ≠ 0#3 := by
  have hclear : i ≠ .clear := by
    rintro rfl
    cases h
    exact ht rfl
  have hcode : t.errCode = errorOf i s := by rw [h.errCode_eq hclear, hs, firstError_zero]
  rwa [← hcode]

section edge
variable {s t : State} {p : Pins}

theorem EdgeEffect.changes_errCode (h : EdgeEffect s p t) (hs : s.errCode ≠ 0#3) (ht : t.errCode ≠ s.errCode) :
    p.rst = true ∨ (p.rst = false ∧ p.cmdValid = true ∧ decode p.cmd = .legal .clear) := by
  cases h with
  | reset hrst => exact .inl hrst
  | command hrst hvalid hd heffect =>
    obtain rfl := heffect.eq_clear_of_changes_errCode hs ht
    exact .inr ⟨hrst, hvalid, hd⟩
  | illegal => exact absurd (firstError_of_ne _ hs) ht
  | idle => exact absurd rfl ht

theorem EdgeEffect.records_errCode (h : EdgeEffect s p t) (hs : s.errCode = 0#3) (ht : t.errCode ≠ 0#3) :
    p.rst = false ∧ p.cmdValid = true ∧
      ((∃ why, decode p.cmd = .illegal why) ∨ ∃ i, decode p.cmd = .legal i ∧ errorOf i s ≠ 0#3) := by
  cases h with
  | reset => exact absurd rfl ht
  | command hrst hvalid hd heffect => exact ⟨hrst, hvalid, .inr ⟨_, hd, heffect.errorOf_ne_of_records hs ht⟩⟩
  | illegal hrst hvalid hd => exact ⟨hrst, hvalid, .inl ⟨_, hd⟩⟩
  | idle => exact absurd hs ht

end edge

/-- Settles O36: at an edge by `EdgeEffect.changes_errCode`; CLEAR has one word. -/
theorem errorStaysUntilClearOrReset : Obligations.ErrorStaysUntilClearOrReset := by
  intro s t hstep hs ht
  by_cases hpower : s.nextInput = .powerCycle
  · exact .inl hpower
  · obtain ⟨p, hin⟩ := State.exists_edge_of_ne_powerCycle hpower
    refine .inr ⟨p, hin, ?_⟩
    rcases (EdgeEffect.of_step hstep hin).changes_errCode hs ht with hrst | ⟨-, hvalid, hd⟩
    · exact .inl hrst
    · exact .inr ⟨hvalid, decode_eq_legal_iff.mp hd⟩

/-! ### The two outputs (60_exceptions.md R186) -/

theorem CommandEffect.raises_resValid {i : Instr} {s t : State} (h : CommandEffect s i t) (hs : s.resValid = false)
    (ht : t.resValid = true) : ∃ d, i = .push d ∧ s.phase = .collect ∧ s.finalByte := by
  cases h with
  | pushFinal d hp _ hf => exact ⟨d, rfl, hp, hf⟩
  | clear | startM | startR => simp at ht
  | nop | badLen | pushIdle | pushMore => simp [hs] at ht
  | read | rdbuf => simp [State.readOut_eq, hs] at ht

theorem CommandEffect.lowers_resValid {i : Instr} {s t : State} (h : CommandEffect s i t) (hs : s.resValid = true)
    (ht : t.resValid = false) : i = .startM ∨ i = .clear ∨ ∃ n, i = .startR n ∧ errorOf (.startR n) s = 0#3 := by
  cases h with
  | startM => exact .inl rfl
  | clear => exact .inr (.inl rfl)
  | startR n hlen => exact .inr (.inr ⟨n, rfl, by rw [errorOf_startR, if_pos hlen]⟩)
  | nop | badLen | pushIdle | pushMore => simp [hs] at ht
  | pushFinal => simp [State.complete_frame] at ht
  | read | rdbuf => simp [State.readOut_eq, hs] at ht

section edge
variable {s t : State} {p : Pins}

theorem EdgeEffect.raises_resValid (h : EdgeEffect s p t) (hs : s.resValid = false) (ht : t.resValid = true) :
    p.rst = false ∧ p.cmdValid = true ∧ ∃ d, decode p.cmd = .legal (.push d) ∧ s.phase = .collect ∧ s.finalByte := by
  cases h with
  | reset => simp at ht
  | command hrst hvalid hd heffect =>
    obtain ⟨d, rfl, hp, hf⟩ := heffect.raises_resValid hs ht
    exact ⟨hrst, hvalid, d, hd, hp, hf⟩
  | illegal | idle => simp [hs] at ht

theorem EdgeEffect.lowers_resValid (h : EdgeEffect s p t) (hs : s.resValid = true) (ht : t.resValid = false) :
    p.rst = true ∨ (p.rst = false ∧ p.cmdValid = true ∧
      (decode p.cmd = .legal .startM ∨ decode p.cmd = .legal .clear ∨
        ∃ n, decode p.cmd = .legal (.startR n) ∧ errorOf (.startR n) s = 0#3)) := by
  cases h with
  | reset hrst => exact .inl hrst
  | command hrst hvalid hd heffect =>
    refine .inr ⟨hrst, hvalid, ?_⟩
    rcases heffect.lowers_resValid hs ht with rfl | rfl | ⟨n, rfl, hn⟩
    · exact .inl hd
    · exact .inr (.inl hd)
    · exact .inr (.inr ⟨n, hd, hn⟩)
  | illegal | idle => simp [hs] at ht

end edge

theorem State.errO_eq_true_iff (s : State) : s.outputs.errO = true ↔ s.errCode ≠ 0#3 := by simp [State.outputs]

theorem State.errO_eq_false_iff (s : State) : s.outputs.errO = false ↔ s.errCode = 0#3 := by simp [State.outputs]

/-- Settles O39: `res_valid_o` is `res_valid` and `err_o` is a recorded error, and the four clauses are what one edge does to
them. -/
theorem outputsRiseAndFall : Obligations.OutputsRiseAndFall := by
  intro s t hstep hpower
  obtain ⟨p, hin⟩ := State.exists_edge_of_ne_powerCycle hpower
  have hedge := EdgeEffect.of_step hstep hin
  simp only [State.errO_eq_true_iff, State.errO_eq_false_iff]
  refine ⟨p, hin, hedge.raises_resValid, hedge.lowers_resValid, hedge.records_errCode, fun hs ht => ?_⟩
  exact hedge.changes_errCode hs (by rw [ht]; exact hs.symm)

/-! ### A step goes on (60_exceptions.md R183) -/

/-- The invariant keeps the address of PUSH inside the buffer (10_state.md R40). -/
theorem State.ReachableForm.idx_lt {s : State} (h : s.ReachableForm) (hp : s.phase = .collect) : s.idx.toNat < 9 := by
  obtain ⟨-, hle, hlt, -⟩ := h.collect hp
  omega

/-- No command stops while the address of PUSH is inside the buffer. -/
theorem exec_goes_on {s : State} (hidx : s.phase = .collect → s.idx.toNat < 9) (i : Instr) : ∃ t, exec i s = .next t := by
  cases i with
  | nop | clear | startM | read | rdbuf => exact ⟨_, rfl⟩
  | startR n =>
    cases hlen : rawLenOk n with
    | true => exact ⟨_, exec_eq_next_iff.mpr (.startR n hlen)⟩
    | false => exact ⟨_, exec_eq_next_iff.mpr (.badLen n hlen)⟩
  | push d =>
    by_cases hp : s.phase = .collect
    · by_cases hf : s.finalByte
      · exact ⟨_, exec_eq_next_iff.mpr (.pushFinal d hp (hidx hp) hf)⟩
      · exact ⟨_, exec_eq_next_iff.mpr (.pushMore d hp (hidx hp) (not_not.mp hf))⟩
    · exact ⟨_, exec_eq_next_iff.mpr (.pushIdle d hp)⟩

theorem runWord_goes_on {s : State} (hform : s.ReachableForm) (w : Word) : ∃ t, runWord w s = .next t := by
  cases hd : decode w with
  | legal i => rw [runWord_legal hd]; exact exec_goes_on hform.idx_lt i
  | illegal why => exact ⟨_, runWord_illegal hd s⟩

/-- An edge goes on, whatever its pins, unless it presents a command to a block that awaits its first reset. -/
theorem clockEdge_goes_on {s : State} {p : Pins} (hinv : s.Inv)
    (hreset : s.awaitingReset = true → p.rst = true ∨ p.cmdValid = false) : ∃ t, clockEdge p s = .next t := by
  cases hrst : p.rst with
  | true => exact ⟨_, clockEdge_of_rst hrst s⟩
  | false =>
    cases hvalid : p.cmdValid with
    | false => exact ⟨_, clockEdge_of_idle hrst hvalid s⟩
    | true =>
      have hafter : s.awaitingReset = false := Bool.eq_false_iff.mpr fun hwait => by
        simpa [hrst, hvalid] using hreset hwait
      rw [clockEdge_of_command hrst hvalid hafter]
      exact runWord_goes_on (hinv.form hafter) p.cmd

theorem step_goes_on {s : State} (hinv : s.Inv) (hreset : s.resetFirst) : ∃ t, step s = .next t := by
  cases hin : s.nextInput with
  | powerCycle => exact ⟨_, by rw [step, hin]; rfl⟩
  | edge p =>
    rw [step, hin]
    exact clockEdge_goes_on hinv.dropInput fun hwait => hreset hwait p hin

/-- Settles O47: the invariant keeps every PUSH inside the buffer, and the platform's duty excludes the one refusal. -/
theorem stepStopsOnlyBeforeReset : Obligations.StepStopsOnlyBeforeReset := fun _ => step_goes_on

/-! ### Runs of many steps (60_exceptions.md R183, R194) -/

theorem run_succ_of_step {s t : State} (h : step s = .next t) (n : Nat) :
    Host.Core.run core (n + 1) s = Host.Core.run core n t := by
  have hcore : core.step s = .next t := h
  simp only [Host.Core.run, hcore]

theorem State.nextInput_ne_powerCycle {s : State} (h : .powerCycle ∉ s.inputs) : s.nextInput ≠ .powerCycle := by
  cases hin : s.inputs with
  | nil => simp [State.nextInput, hin]
  | cons i rest =>
    rw [State.nextInput_of_inputs hin]
    rintro rfl
    exact h (by simp [hin])

/-- An edge takes no further input and does not make the block await a reset. -/
theorem EdgeEffect.modelFields {s t : State} {p : Pins} (h : EdgeEffect s p t) :
    t.inputs = s.inputs ∧ (s.awaitingReset = false → t.awaitingReset = false) := by
  cases h with
  | reset => simp
  | command _ _ _ heffect =>
    obtain ⟨hinputs, hreset, -⟩ := exec_modelFields (exec_eq_next_iff.mpr heffect)
    exact ⟨hinputs, hreset.trans⟩
  | illegal | idle => simp

/-- What keeps every later step from stopping. -/
structure State.Running (s : State) : Prop where
  inv : s.Inv
  afterReset : s.awaitingReset = false
  powered : .powerCycle ∉ s.inputs

theorem State.Running.goes_on {s : State} (h : s.Running) : ∃ t, step s = .next t ∧ t.Running := by
  have hreset : s.resetFirst := fun hwait => absurd (h.afterReset.symm.trans hwait) nofun
  obtain ⟨t, hstep⟩ := step_goes_on h.inv hreset
  obtain ⟨p, hin⟩ := State.exists_edge_of_ne_powerCycle (State.nextInput_ne_powerCycle h.powered)
  obtain ⟨hinputs, hafter⟩ := (EdgeEffect.of_step hstep hin).modelFields
  refine ⟨t, hstep, step_inv h.inv hstep, hafter h.afterReset, ?_⟩
  rw [hinputs]
  exact fun hmem => h.powered (List.mem_of_mem_tail hmem)

theorem State.Running.safeFor {s : State} (h : s.Running) (n : Nat) : s.safeFor n := by
  induction n generalizing s with
  | zero => exact ⟨s, rfl⟩
  | succ n ih =>
    obtain ⟨t, hstep, ht⟩ := h.goes_on
    rw [State.safeFor, run_succ_of_step hstep]
    exact ih ht

/-- Settles O48: `State.Running` holds at the start, and a step goes on from it and keeps it. -/
theorem noRunStopsAfterReset : Obligations.NoRunStopsAfterReset :=
  fun n _ hinv hreset hpower => State.Running.safeFor ⟨hinv, hreset, hpower⟩ n

/-- Settles O6: by induction on the edges, each of which only takes itself off the list. -/
theorem idleEdgesHoldState : Obligations.IdleEdgesHoldState := by
  intro ps
  induction ps with
  | nil => rintro s rest - rfl; rfl
  | cons p ps ih =>
    intro s rest hidle hin
    obtain ⟨⟨hrst, hvalid⟩, hidle'⟩ := List.forall_mem_cons.mp hidle
    have hstep : step s = .next { s with inputs := ps.map .edge ++ rest } :=
      (step_of_edge hin).trans (clockEdge_of_idle hrst hvalid _)
    exact (run_succ_of_step hstep ps.length).trans (ih _ rest hidle' rfl)

/-! ### What the host observes (60_exceptions.md R193) -/

theorem Phase.ofBits_bits (p : Phase) : Phase.ofBits p.bits = p := by cases p <;> rfl

theorem FrameKind.ofBit_bit (k : FrameKind) : FrameKind.ofBit k.bit = k := by cases k <;> rfl

/-- A field of one bit holds one value. -/
theorem bit_eq_of_field_eq {w : Word} {k : Nat} {a b : Bool} (ha : w.extractLsb' k 1 = BitVec.ofBool a)
    (hb : w.extractLsb' k 1 = BitVec.ofBool b) : a = b :=
  (getLsbD_of_extractLsb' ha).symm.trans (getLsbD_of_extractLsb' hb)

theorem FrameKind.eq_of_field_eq {w : Word} {k : Nat} {a b : FrameKind} (ha : w.extractLsb' k 1 = BitVec.ofBool a.bit)
    (hb : w.extractLsb' k 1 = BitVec.ofBool b.bit) : a = b :=
  Function.LeftInverse.injective FrameKind.ofBit_bit (bit_eq_of_field_eq ha hb)

theorem zext16_injective : Function.Injective zext16 :=
  Function.LeftInverse.injective (g := BitVec.setWidth 8) fun b => by simp [zext16]

/-- The STATUS word determines the eight elements it holds (42_readout.md R161). -/
theorem State.statusWord_inj {s t : State} (h : s.statusWord = t.statusWord) :
    s.status = t.status ∧ s.ok = t.ok ∧ s.ckOk = t.ckOk ∧ s.hdrOk = t.hdrOk ∧ s.resValid = t.resValid ∧
    s.resKind = t.resKind ∧ s.phase = t.phase ∧ s.errCode = t.errCode := by
  obtain ⟨hstatus, hok, hckOk, hhdrOk, hvalid, hresKind, hphase, -, herr, -⟩ := s.statusWord_fields
  obtain ⟨hstatus', hok', hckOk', hhdrOk', hvalid', hresKind', hphase', -, herr', -⟩ := t.statusWord_fields
  rw [h] at hstatus hok hckOk hhdrOk hvalid hresKind hphase herr
  exact ⟨hstatus.symm.trans hstatus', bit_eq_of_field_eq hok hok', bit_eq_of_field_eq hckOk hckOk',
    bit_eq_of_field_eq hhdrOk hhdrOk', bit_eq_of_field_eq hvalid hvalid', FrameKind.eq_of_field_eq hresKind hresKind',
    Function.LeftInverse.injective Phase.ofBits_bits (hphase.symm.trans hphase'), herr.symm.trans herr'⟩

/-- The CTRL word determines the three elements it holds (42_readout.md R163). -/
theorem State.ctrlWord_inj {s t : State} (h : s.ctrlWord = t.ctrlWord) :
    s.idx = t.idx ∧ s.len = t.len ∧ s.kind = t.kind := by
  obtain ⟨hidx, hlen, hkind, -⟩ := s.ctrlWord_fields
  obtain ⟨hidx', hlen', hkind', -⟩ := t.ctrlWord_fields
  rw [h] at hidx hlen hkind
  exact ⟨hidx.symm.trans hidx', hlen.symm.trans hlen', FrameKind.eq_of_field_eq hkind hkind'⟩

theorem State.selectorValue_eq_some_of_read {s : State} {r : Nibble} {w : Word} (hr : r.toNat ≤ 7)
    (h : exec (.read r) s = .next { s with rdata := w }) : s.selectorValue r = some w := by
  cases hv : s.selectorValue r with
  | none =>
    have hge : 8 ≤ r.toNat := (s.selectorValue_isNone r).mp (by rw [hv]; rfl)
    omega
  | some v =>
    rw [exec_read_of_value hv] at h
    exact congrArg some (congrArg State.rdata (Host.Outcome.next.inj h))

theorem State.read_eq_of_rdbuf {s : State} {i : Nibble} {w : Word} (hi : i.toNat ≤ 8)
    (h : exec (.rdbuf i) s = .next { s with rdata := w }) : zext16 (Memory.read s.buf i.toNat) = w := by
  rw [exec_rdbuf_of_le s hi] at h
  exact congrArg State.rdata (Host.Outcome.next.inj h)

section observed
variable {s t : State}

/-- READ returns the same of both states at every selector of 0 to 7. -/
def State.SameReads (s t : State) : Prop :=
  ∀ r : Nibble, r.toNat ≤ 7 → ∃ w, exec (.read r) s = .next { s with rdata := w } ∧
    exec (.read r) t = .next { t with rdata := w }

/-- RDBUF returns the same of both states at every address of the buffer. -/
def State.SameBytes (s t : State) : Prop :=
  ∀ i : Nibble, i.toNat ≤ 8 → ∃ w, exec (.rdbuf i) s = .next { s with rdata := w } ∧
    exec (.rdbuf i) t = .next { t with rdata := w }

theorem State.SameReads.selectorValue_eq (h : s.SameReads t) {r : Nibble} (hr : r.toNat ≤ 7) :
    s.selectorValue r = t.selectorValue r := by
  obtain ⟨w, hs, ht⟩ := h r hr
  rw [State.selectorValue_eq_some_of_read hr hs, State.selectorValue_eq_some_of_read hr ht]

/-- Each of the eight words of R160 is the same but TEMPC, which follows TEMPRAW. -/
theorem State.SameReads.words_eq (h : s.SameReads t) :
    s.statusWord = t.statusWord ∧ s.dist = t.dist ∧ s.strength = t.strength ∧ s.tempRaw = t.tempRaw ∧
    s.ckCalc ++ s.ckRecv = t.ckCalc ++ t.ckRecv ∧ s.ctrlWord = t.ctrlWord ∧ s.sum = t.sum := by
  have hword {r : Nibble} {a b : Word} (hr : r.toNat ≤ 7) (ha : s.selectorValue r = some a)
      (hb : t.selectorValue r = some b) : a = b :=
    Option.some.inj (ha.symm.trans ((h.selectorValue_eq hr).trans hb))
  exact ⟨hword (r := 0#4) (by decide) rfl rfl, hword (r := 1#4) (by decide) rfl rfl,
    hword (r := 2#4) (by decide) rfl rfl, hword (r := 3#4) (by decide) rfl rfl,
    hword (r := 5#4) (by decide) rfl rfl, hword (r := 6#4) (by decide) rfl rfl,
    zext16_injective (hword (r := 7#4) (by decide) rfl rfl)⟩

/-- Nine bytes are the whole buffer, in its one canonical form (20_memory.md R50). -/
theorem State.SameBytes.buf_eq (h : s.SameBytes t) (hs : Memory.wf s.buf = true) (ht : Memory.wf t.buf = true) :
    s.buf = t.buf := by
  refine Memory.eq_of_reads hs ht fun a => ?_
  by_cases ha : a ≤ 8
  · have hnat : (BitVec.ofNat 4 a).toNat = a := by rw [BitVec.toNat_ofNat]; omega
    obtain ⟨w, hws, hwt⟩ := h (BitVec.ofNat 4 a) (by omega)
    have hread := (State.read_eq_of_rdbuf (by omega) hws).trans (State.read_eq_of_rdbuf (by omega) hwt).symm
    rw [hnat] at hread
    exact zext16_injective hread
  · rw [Memory.read_outside hs (by omega), Memory.read_outside ht (by omega)]

end observed

/-- Settles O32: STATUS and CTRL hold eleven elements in fields that do not overlap, the other selectors hold six, and RDBUF reads
the buffer. -/
theorem hostObservesWholeState : Obligations.HostObservesWholeState := by
  intro s t hs ht hreads hbytes
  obtain ⟨hstatusWord, hdist, hstrength, htemp, hck, hctrlWord, hsum⟩ := State.SameReads.words_eq hreads
  obtain ⟨hstatus, hok, hckOk, hhdrOk, hvalid, hresKind, hphase, herr⟩ := State.statusWord_inj hstatusWord
  obtain ⟨hidx, hlen, hkind⟩ := State.ctrlWord_inj hctrlWord
  have hckCalc : s.ckCalc = t.ckCalc := by
    rw [← le16_high s.ckRecv s.ckCalc, ← le16_high t.ckRecv t.ckCalc]; exact congrArg _ hck
  have hckRecv : s.ckRecv = t.ckRecv := by
    rw [← le16_low s.ckRecv s.ckCalc, ← le16_low t.ckRecv t.ckCalc]; exact congrArg _ hck
  have hbuf : s.buf = t.buf := State.SameBytes.buf_eq hbytes hs ht
  rw [hphase, hkind, hlen, hidx, hsum, hbuf, hstatus, hok, hckOk, hhdrOk, hvalid, hresKind, hckCalc, hckRecv, hdist,
    hstrength, htemp, herr]

end Sys2Proof.Machine
end

section
/-! PROOFS. The reset family (70_reset_and_hazards.md): edges with `rst` = 1 in a row, what the model chooses where the spec gives
no meaning (logs 2 to 4), and the statements O3, O5 and O7. -/

namespace Sys2Proof.Machine

/-! ### Reset edges in a row (70_reset_and_hazards.md R210) -/

/-- `step_of_rst` for an edge that stands first in the list, with the list that is left written out. -/
theorem step_resets {s : State} {p : Pins} {rest : List HostInput} (hin : s.inputs = .edge p :: rest) (hrst : p.rst = true) :
    step s = .next { s with inputs := rest }.resetEdge :=
  (step_of_edge hin).trans (clockEdge_of_rst hrst _)

/-- After a reset edge, any number of further ones only take themselves off the list: "While `rst` stays 1, the state stays at
the reset values." -/
theorem run_resetEdge_of_rst {ps : List Pins} (hrst : ∀ p ∈ ps, p.rst = true) (s : State) (rest : List HostInput) :
    Host.Core.run core ps.length { s with inputs := ps.map HostInput.edge ++ rest }.resetEdge =
      .next { s with inputs := rest }.resetEdge := by
  induction ps with
  | nil => rfl
  | cons p ps ih =>
    obtain ⟨hp, hps⟩ := List.forall_mem_cons.mp hrst
    have hstep : step { s with inputs := (p :: ps).map HostInput.edge ++ rest }.resetEdge =
        .next { s with inputs := ps.map HostInput.edge ++ rest }.resetEdge := step_resets rfl hp
    exact (run_succ_of_step hstep ps.length).trans (ih hps)

/-- Any positive number of reset edges does what one of them does. -/
theorem run_of_rst {ps : List Pins} {s : State} {rest : List HostInput} (hne : ps ≠ []) (hrst : ∀ p ∈ ps, p.rst = true)
    (hin : s.inputs = ps.map .edge ++ rest) :
    Host.Core.run core ps.length s = .next { s with inputs := rest }.resetEdge := by
  cases ps with
  | nil => exact absurd rfl hne
  | cons p ps =>
    obtain ⟨hp, hps⟩ := List.forall_mem_cons.mp hrst
    have hstep : step s = .next { s with inputs := ps.map HostInput.edge ++ rest }.resetEdge := step_resets hin hp
    exact (run_succ_of_step hstep ps.length).trans (run_resetEdge_of_rst hps s rest)

/-- Settles O3: `run_of_rst` for the run; CLEAR answers `clearElements`, which `resetEdge` is but for `awaitingReset`. -/
theorem resetEdgeOverridesCommand : Obligations.ResetEdgeOverridesCommand :=
  ⟨fun _ _ _ hne hrst hin =>
      ⟨_, run_of_rst hne hrst hin, State.resetEdge_atResetValues _, State.resetEdge_inputs _, State.resetEdge_awaitingReset _,
        State.resetEdge_powerUps _⟩,
    fun s _ rest hin hrst =>
      ⟨{ s with inputs := rest }.clearElements, rfl, step_resets hin hrst⟩⟩

/-! ### After the last listed input (log 2) -/

theorem State.nextInput_of_inputs_nil {s : State} (h : s.inputs = []) : s.nextInput = .edge Pins.idle := by
  simp [State.nextInput, h]

theorem State.dropInput_of_inputs_nil {s : State} (h : s.inputs = []) : s.dropInput = s := by
  have htail : s.inputs.tail = s.inputs := by rw [h, List.tail_nil]
  rw [State.dropInput, htail]

/-- Settles O5: the edge presented is `Pins.idle`, and there is no input to take off the list. -/
theorem noInputLeavesStateUnchanged : Obligations.NoInputLeavesStateUnchanged := by
  intro s hin
  calc step s = applyInput s.nextInput s.dropInput := rfl
    _ = clockEdge Pins.idle s := by rw [State.nextInput_of_inputs_nil hin, State.dropInput_of_inputs_nil hin]; rfl
    _ = .next s := clockEdge_of_idle rfl rfl s

/-! ### From power-up to the first reset (70_reset_and_hazards.md R211, logs 3 and 4) -/

/-- A step is a loss and return of power where one is listed first, on the state with that input taken off the list. -/
theorem step_of_powerCycle {s : State} {rest : List HostInput} (hin : s.inputs = .powerCycle :: rest) :
    step s = .next { s with inputs := rest }.powerUp := by
  simp [step, State.nextInput_of_inputs hin, State.dropInput, hin, applyInput]

theorem clockEdge_of_awaitingReset {p : Pins} {s : State} (hrst : p.rst = false) (hvalid : p.cmdValid = true)
    (hwait : s.awaitingReset = true) : clockEdge p s = .refused .commandBeforeReset := by
  simp [clockEdge, hrst, hvalid, hwait]

/-- Settles O7: `powerUp` begins the wait whatever its free values are, and `clockEdge` refuses a command or resets. -/
theorem commandBeforeFirstResetRefused : Obligations.CommandBeforeFirstResetRefused := by
  refine ⟨fun s rest hin => ?_, fun s p rest hin hwait => ⟨fun hrst hvalid => ?_, fun hrst => ?_⟩⟩
  · exact ⟨_, step_of_powerCycle hin, State.powerUp_awaitingReset _, State.powerUp_inputs _, State.powerUp_buf_wf _⟩
  · exact (step_of_edge hin).trans (clockEdge_of_awaitingReset hrst hvalid hwait)
  · exact ⟨_, step_resets hin hrst, State.resetEdge_awaitingReset _⟩

end Sys2Proof.Machine
end
